-- ==== Sys2Proof/Word.lean ====
section
/-! DEFINITION. The plain data the block works on: octets, channel identifiers, and the logical values of the
codec (spec/10_state.md R24, R27). Types only; what is computed from them stands under Machine/. -/

namespace Sys2Proof

/-- An octet, an unsigned value 0..255 (00_scope.md R8). -/
abbrev Byte := BitVec 8

/-- A byte string: a finite sequence of octets, indexed from 0 (00_scope.md R8). -/
abbrev Octets := List Byte

/-- A channel identifier: exactly 4 octets, octet 0 first, copied and compared as a sequence and never used as a
number (20_memory.md R52, 30_encoding.md R96). -/
structure Cid where
  o0 : Byte
  o1 : Byte
  o2 : Byte
  o3 : Byte
  deriving DecidableEq, Repr

mutual

/-- A logical value, the operand of ENCODE and (for the values R25 admits) the result of DECODE: 10_state.md R24.
`int` is the spec's single `Int` constructor; `other` carries the opaque label of an unrepresentable variant. -/
inductive LogicalValue where
  | int (z : Int)
  | bytes (b : List (BitVec 8))
  | text (b : List (BitVec 8))
  | array (vs : LogicalValues)
  | map (ps : LogicalPairs)
  | bool (t : Bool)
  | other (kind : Nat)
  deriving DecidableEq, Repr

/-- A finite list of logical values: the elements of an `Array` (10_state.md R24). -/
inductive LogicalValues where
  | nil
  | cons (v : LogicalValue) (vs : LogicalValues)
  deriving DecidableEq, Repr

/-- A finite list of (key, value) pairs in insertion order: the entries of a `Map` (10_state.md R24). -/
inductive LogicalPairs where
  | nil
  | cons (k v : LogicalValue) (ps : LogicalPairs)
  deriving DecidableEq, Repr

end

end Sys2Proof
end

