-- ==== Sys2Proof/Config.lean ====
section
/-! DEFINITION. What an instance or a realisation fixes and no operation changes: the configuration octets and the
named parameters (spec/00_scope.md R7, 10_state.md R32, R35, 70_reset_and_hazards.md R302). They are fields of
State that nothing writes, so a statement over every state is a statement over every setting (log 8). -/

namespace Sys2Proof

/-- The parameter NEG_KEY_ORDER (00_scope.md R7, 40_cbor_encode.md R122). -/
inductive NegKeyOrder where
  | numeric
  | encoded
  deriving DecidableEq, Repr

/-- The parameter UTF8_POLICY; `VALIDATE` is the only value the spec defines (00_scope.md R7, 41_cbor_decode.md R157). -/
inductive Utf8Policy where
  | validate
  deriving DecidableEq, Repr

/-- The parameters of the codec unit: MAX_DEPTH (`none` is unbounded), NEG_KEY_ORDER and UTF8_POLICY. -/
structure CodecConfig where
  maxDepth : Option Nat
  negKeyOrder : NegKeyOrder
  utf8Policy : Utf8Policy
  deriving DecidableEq, Repr

/-- The reference values of the codec parameters (00_scope.md R7). -/
def CodecConfig.reference : CodecConfig := ⟨none, .numeric, .validate⟩

/-- The configuration of one framer instance: VMAJ, VMIN, BUILD (10_state.md R32) and MAX_CHANNELS (`none` is
unbounded, 00_scope.md R7). -/
structure FramerConfig where
  vmaj : Byte
  vmin : Byte
  build : Byte
  maxChannels : Option Nat
  deriving DecidableEq, Repr

/-- The default configuration: CA FE 01, channels unbounded (10_state.md R32, 00_scope.md R7). -/
def FramerConfig.reference : FramerConfig := ⟨0xCA, 0xFE, 0x01, none⟩

end Sys2Proof
end

