-- ==== Sys2Proof/Machine/Constants.lean ====
section
/-! DEFINITION. The fixed numbers of the block: sizes, the timeout, command values, error codes and the hardwired
octets (spec/00_scope.md R7, 30_encoding.md R90, R91, R93, 10_state.md R31, R32). -/

namespace Sys2Proof.Machine

/-- PKT_SIZE (R7). -/
def pktSize : Nat := 64
/-- INIT_HDR: cid 4, cmd 1, bcnt 2 (R7). -/
def initHdr : Nat := 7
/-- CONT_HDR: cid 4, seq 1 (R7). -/
def contHdr : Nat := 5
/-- INIT_DATA_MAX (R7). -/
def initDataMax : Nat := 57
/-- CONT_DATA_MAX (R7). -/
def contDataMax : Nat := 59
/-- MSG_MAX = 57 + 128 * 59 (R7, R33, R245). -/
def msgMax : Nat := 7609
/-- T_TIMEOUT in milliseconds (R7, R191). -/
def tTimeout : Int := 250

/-- BROADCAST_CID = FF FF FF FF (R31). -/
def broadcastCid : Cid := ⟨0xFF, 0xFF, 0xFF, 0xFF⟩
/-- CTAPHID_VERSION, hardwired (R32). -/
def ctaphidVersion : Byte := 0x02
/-- CAPS, hardwired: WINK bit 0, CBOR bit 2, NMSG bit 3 (R32, R93). -/
def caps : Byte := 0x0D

/-! The command values of R90, 7 bits each. -/

def cmdPing : BitVec 7 := 0x01
def cmdMsg : BitVec 7 := 0x03
def cmdLock : BitVec 7 := 0x04
def cmdInit : BitVec 7 := 0x06
def cmdWink : BitVec 7 := 0x08
def cmdCbor : BitVec 7 := 0x10
def cmdCancel : BitVec 7 := 0x11
def cmdKeepalive : BitVec 7 := 0x3B
def cmdError : BitVec 7 := 0x3F

/-- The nine commands of the table R90; every other 7-bit value is unlisted (R98). -/
def listedCommands : List (BitVec 7) :=
  [cmdPing, cmdMsg, cmdLock, cmdInit, cmdWink, cmdCbor, cmdCancel, cmdKeepalive, cmdError]

/-! The CTAPHID error codes of R91. INVALID_PAR, MSG_TIMEOUT and LOCK_REQUIRED are never emitted (R273). -/

def errInvalidCmd : Byte := 0x01
def errInvalidPar : Byte := 0x02
def errInvalidLen : Byte := 0x03
def errInvalidSeq : Byte := 0x04
def errMsgTimeout : Byte := 0x05
def errChannelBusy : Byte := 0x06
def errLockRequired : Byte := 0x0A
def errInvalidChannel : Byte := 0x0B
def errOther : Byte := 0x7F

end Sys2Proof.Machine
end

