-- ==== Sys2Proof/Machine/Operands.lean ====
section
/-! DEFINITION. Operand forms: slices of octet strings, big-endian numbers, the two fields of a CBOR initial octet,
and the fields of a CTAPHID packet (spec/00_scope.md R8, R9, 30_encoding.md R70, R72, R80-R83). -/

namespace Sys2Proof.Machine

/-- `b[i..j]`: the octets at indices i to j - 1; short where b ends before j (R8, 20_memory.md R58). -/
def slice (b : Octets) (i j : Nat) : Octets := (b.drop i).take (j - i)

/-- `b[i]`, read only where the calling rule has made sure that b has an octet i. -/
def octetAt (b : Octets) (i : Nat) : Byte := b.getD i 0

/-- `zeros(n)`: n octets of 00 (R8). -/
def zeros (n : Nat) : Octets := List.replicate n 0

/-- `uint_be(s)`: the sum of s[j] * 256^(k-1-j) (R9). -/
def uintBe (s : Octets) : Nat := s.foldl (fun acc o => acc * 256 + o.toNat) 0

/-- `be_k(v)`: the k-octet big-endian representation of v (R9). -/
def beOctets : Nat → Nat → Octets
  | 0, _ => []
  | k + 1, v => BitVec.ofNat 8 (v / 256 ^ k) :: beOctets k v

/-- The major type: bits 7:5 of an initial octet (R70). -/
def majorType (ib : Byte) : BitVec 3 := ib.extractLsb' 5 3

/-- The additional information: bits 4:0 of an initial octet (R70). -/
def additionalInfo (ib : Byte) : BitVec 5 := ib.extractLsb' 0 5

/-- `ib = (mt << 5) | ai` (R70). -/
def initialOctet (mt : BitVec 3) (ai : BitVec 5) : Byte := mt ++ ai

/-- The four octets of a channel identifier, octet 0 first (20_memory.md R52). -/
def cidOctets (c : Cid) : Octets := [c.o0, c.o1, c.o2, c.o3]

/-- The octet 4 of an initialization packet: `0x80 | cmd` (R80). -/
def initOctet (cmd : BitVec 7) : Byte := (1 : BitVec 1) ++ cmd

/-- The octet 4 of a continuation packet: the sequence number, high bit clear (R81). -/
def contOctet (seq : BitVec 7) : Byte := (0 : BitVec 1) ++ seq

/-- `packet[0..4]` (R83). -/
def pktCid (pkt : Octets) : Cid := ⟨octetAt pkt 0, octetAt pkt 1, octetAt pkt 2, octetAt pkt 3⟩

/-- The high bit of octet 4: set in an initialization packet, clear in a continuation packet (R82). -/
def isInitPacket (pkt : Octets) : Bool := (octetAt pkt 4).msb

/-- `packet[4] & 0x7F`: the command of an initialization packet (R83). -/
def pktCmd (pkt : Octets) : BitVec 7 := (octetAt pkt 4).setWidth 7

/-- `packet[4]` of a continuation packet, whose high bit is clear: the sequence number (R83). -/
def pktSeq (pkt : Octets) : BitVec 7 := (octetAt pkt 4).setWidth 7

/-- `u16_be(packet[5..7])` (R83, 20_memory.md R52). -/
def pktBcnt (pkt : Octets) : BitVec 16 := octetAt pkt 5 ++ octetAt pkt 6

/-- `packet[7..]`: the payload octets of an initialization packet (R80). -/
def initPayload (pkt : Octets) : Octets := pkt.drop initHdr

/-- `packet[5..]`: the payload octets of a continuation packet (R81). -/
def contPayload (pkt : Octets) : Octets := pkt.drop contHdr

end Sys2Proof.Machine
end

