-- ==== Sys2Proof/Syntax.lean ====
section
/-! DEFINITION. The instructions: one constructor for each of the 70 rows of spec/opcode_table.json, in the table's
order. A cbor-initial-octet row is a DECODE whose operand starts with an octet of that row, `tail` being the octets
after it; a ctaphid row is a HANDLE of a packet with such an octet 4, `cid` being octets 0..3 and `tail` octets 5 on;
a host-op row is the host operation of that code (30_encoding.md R70, R80, R81, R95; log 1). -/

namespace Sys2Proof

/-- One constructor per row of the opcode table. -/
inductive Instr where
  /-- UINT_IMM_0_15: unsigned integer, argument ai = 0..15 (R154). -/
  | uintImm0to15 (ai : BitVec 4) (tail : Octets)
  /-- UINT_IMM_16_23: unsigned integer, argument 16 + lo (R154). -/
  | uintImm16to23 (lo : BitVec 3) (tail : Octets)
  /-- UINT_ARG8: unsigned integer, 1 argument octet (R154). -/
  | uintArg8 (tail : Octets)
  /-- UINT_ARG16: unsigned integer, 2 argument octets (R154). -/
  | uintArg16 (tail : Octets)
  /-- UINT_ARG32: unsigned integer, 4 argument octets (R154). -/
  | uintArg32 (tail : Octets)
  /-- UINT_ARG64: unsigned integer, 8 argument octets (R154). -/
  | uintArg64 (tail : Octets)
  /-- UINT_RSVD_AI28_31: unsigned integer head with ai = 28..31, invalid (R153). -/
  | uintRsvdAi28to31 (lo : BitVec 2) (tail : Octets)
  /-- NINT_IMM_0_15: negative integer, argument ai = 0..15 (R155). -/
  | nintImm0to15 (ai : BitVec 4) (tail : Octets)
  /-- NINT_IMM_16_23: negative integer, argument 16 + lo (R155). -/
  | nintImm16to23 (lo : BitVec 3) (tail : Octets)
  /-- NINT_ARG8: negative integer, 1 argument octet (R155). -/
  | nintArg8 (tail : Octets)
  /-- NINT_ARG16: negative integer, 2 argument octets (R155). -/
  | nintArg16 (tail : Octets)
  /-- NINT_ARG32: negative integer, 4 argument octets (R155). -/
  | nintArg32 (tail : Octets)
  /-- NINT_ARG64: negative integer, 8 argument octets (R155). -/
  | nintArg64 (tail : Octets)
  /-- NINT_RSVD_AI28_31: negative integer head with ai = 28..31, invalid (R153). -/
  | nintRsvdAi28to31 (lo : BitVec 2) (tail : Octets)
  /-- BSTR_IMM_0_15: byte string, argument ai = 0..15 (R156). -/
  | bstrImm0to15 (ai : BitVec 4) (tail : Octets)
  /-- BSTR_IMM_16_23: byte string, argument 16 + lo (R156). -/
  | bstrImm16to23 (lo : BitVec 3) (tail : Octets)
  /-- BSTR_ARG8: byte string, 1 argument octet (R156). -/
  | bstrArg8 (tail : Octets)
  /-- BSTR_ARG16: byte string, 2 argument octets (R156). -/
  | bstrArg16 (tail : Octets)
  /-- BSTR_ARG32: byte string, 4 argument octets (R156). -/
  | bstrArg32 (tail : Octets)
  /-- BSTR_ARG64: byte string, 8 argument octets (R156). -/
  | bstrArg64 (tail : Octets)
  /-- BSTR_RSVD_AI28_31: byte string head with ai = 28..31, invalid (R153). -/
  | bstrRsvdAi28to31 (lo : BitVec 2) (tail : Octets)
  /-- TSTR_IMM_0_15: text string, argument ai = 0..15 (R157). -/
  | tstrImm0to15 (ai : BitVec 4) (tail : Octets)
  /-- TSTR_IMM_16_23: text string, argument 16 + lo (R157). -/
  | tstrImm16to23 (lo : BitVec 3) (tail : Octets)
  /-- TSTR_ARG8: text string, 1 argument octet (R157). -/
  | tstrArg8 (tail : Octets)
  /-- TSTR_ARG16: text string, 2 argument octets (R157). -/
  | tstrArg16 (tail : Octets)
  /-- TSTR_ARG32: text string, 4 argument octets (R157). -/
  | tstrArg32 (tail : Octets)
  /-- TSTR_ARG64: text string, 8 argument octets (R157). -/
  | tstrArg64 (tail : Octets)
  /-- TSTR_RSVD_AI28_31: text string head with ai = 28..31, invalid (R153). -/
  | tstrRsvdAi28to31 (lo : BitVec 2) (tail : Octets)
  /-- ARRAY_IMM_0_15: array, argument ai = 0..15 (R159). -/
  | arrayImm0to15 (ai : BitVec 4) (tail : Octets)
  /-- ARRAY_IMM_16_23: array, argument 16 + lo (R159). -/
  | arrayImm16to23 (lo : BitVec 3) (tail : Octets)
  /-- ARRAY_ARG8: array, 1 argument octet (R159). -/
  | arrayArg8 (tail : Octets)
  /-- ARRAY_ARG16: array, 2 argument octets (R159). -/
  | arrayArg16 (tail : Octets)
  /-- ARRAY_ARG32: array, 4 argument octets (R159). -/
  | arrayArg32 (tail : Octets)
  /-- ARRAY_ARG64: array, 8 argument octets (R159). -/
  | arrayArg64 (tail : Octets)
  /-- ARRAY_RSVD_AI28_31: array head with ai = 28..31, invalid (R153). -/
  | arrayRsvdAi28to31 (lo : BitVec 2) (tail : Octets)
  /-- MAP_IMM_0_15: map, argument ai = 0..15 (R160). -/
  | mapImm0to15 (ai : BitVec 4) (tail : Octets)
  /-- MAP_IMM_16_23: map, argument 16 + lo (R160). -/
  | mapImm16to23 (lo : BitVec 3) (tail : Octets)
  /-- MAP_ARG8: map, 1 argument octet (R160). -/
  | mapArg8 (tail : Octets)
  /-- MAP_ARG16: map, 2 argument octets (R160). -/
  | mapArg16 (tail : Octets)
  /-- MAP_ARG32: map, 4 argument octets (R160). -/
  | mapArg32 (tail : Octets)
  /-- MAP_ARG64: map, 8 argument octets (R160). -/
  | mapArg64 (tail : Octets)
  /-- MAP_RSVD_AI28_31: map head with ai = 28..31, invalid (R153). -/
  | mapRsvdAi28to31 (lo : BitVec 2) (tail : Octets)
  /-- TAG_UNSUPPORTED: tagged item, unsupported (R153). -/
  | tagUnsupported (ai : BitVec 5) (tail : Octets)
  /-- SIMPLE_E0_EF_INVALID: simple values 0..15, invalid (R153). -/
  | simpleE0toEFInvalid (lo : BitVec 4) (tail : Octets)
  /-- SIMPLE_F0_F3_INVALID: simple values 16..19, invalid (R153). -/
  | simpleF0toF3Invalid (lo : BitVec 2) (tail : Octets)
  /-- FALSE: the boolean false (R161). -/
  | cborFalse (tail : Octets)
  /-- TRUE: the boolean true (R161). -/
  | cborTrue (tail : Octets)
  /-- SIMPLE_F6_F7_INVALID: F6 and F7, invalid (R153). -/
  | simpleF6toF7Invalid (lo : BitVec 1) (tail : Octets)
  /-- SIMPLE_F8_FB_INVALID: F8..FB, invalid (R153). -/
  | simpleF8toFBInvalid (lo : BitVec 2) (tail : Octets)
  /-- SIMPLE_FC_FF_INVALID: FC..FF, invalid (R153). -/
  | simpleFCtoFFInvalid (lo : BitVec 2) (tail : Octets)
  /-- CTAPHID_PING: initialization packet of command PING (R227). -/
  | ctaphidPing (cid : Cid) (tail : Octets)
  /-- CTAPHID_MSG: initialization packet of command MSG (R227). -/
  | ctaphidMsg (cid : Cid) (tail : Octets)
  /-- CTAPHID_LOCK: initialization packet of command LOCK (R228). -/
  | ctaphidLock (cid : Cid) (tail : Octets)
  /-- CTAPHID_INIT: initialization packet of command INIT (R220). -/
  | ctaphidInit (cid : Cid) (tail : Octets)
  /-- CTAPHID_WINK: initialization packet of command WINK (R227). -/
  | ctaphidWink (cid : Cid) (tail : Octets)
  /-- CTAPHID_CBOR: initialization packet of command CBOR (R227). -/
  | ctaphidCbor (cid : Cid) (tail : Octets)
  /-- CTAPHID_CANCEL: initialization packet of command CANCEL (R227). -/
  | ctaphidCancel (cid : Cid) (tail : Octets)
  /-- CTAPHID_KEEPALIVE: initialization packet of command KEEPALIVE (R227). -/
  | ctaphidKeepalive (cid : Cid) (tail : Octets)
  /-- CTAPHID_ERROR: initialization packet of command ERROR (R227). -/
  | ctaphidError (cid : Cid) (tail : Octets)
  /-- CTAPHID_INIT_PACKET_OTHER_CMD: initialization packet of a command the table does not list (R98) (R227). -/
  | ctaphidInitPacketOtherCmd (cid : Cid) (cmd : BitVec 7) (tail : Octets)
  /-- CTAPHID_CONT_PACKET: continuation packet with sequence number seq (R200). -/
  | ctaphidContPacket (cid : Cid) (seq : BitVec 7) (tail : Octets)
  /-- RESET: start a fresh framer instance with the same configuration (R300). -/
  | reset
  /-- ENCODE: encode a logical value (R110). -/
  | encode (v : LogicalValue)
  /-- DECODE: decode the first item of b (R150). -/
  | decode (b : Octets)
  /-- DECODE_ALL: decode b, all of which must be one item (R166). -/
  | decodeAll (b : Octets)
  /-- HANDLE: feed one inbound packet to the framer (R190). -/
  | handle (pkt : Octets)
  /-- EMIT: split an outbound message into packets (R240). -/
  | emit (cmd : BitVec 7) (cid : Cid) (payload : Octets)
  /-- IS_BROADCAST: is cid the broadcast channel (R248). -/
  | isBroadcast (cid : Cid)
  /-- IS_VALID: is cid in the allocated set (R249). -/
  | isValid (cid : Cid)
  /-- HOST_OP_REFUSED: an operation code 8..F, which names no operation (R99). -/
  | hostOpRefused (code : BitVec 3)
  deriving DecidableEq, Repr

end Sys2Proof
end

