-- ==== Sys2Proof/WellFormed.lean ====
section
/-! DEFINITION. Which instructions are well formed: a packet has at most 64 octets (20_memory.md R57), and the row for
unlisted commands holds a command the table R90 does not list (30_encoding.md R98). Everything else is bounded by
its type. -/

namespace Sys2Proof

/-- A packet row's octets 5 on: at most 59, so that the packet has at most 64 octets (R57). -/
def packetTailOk (tail : Octets) : Bool := tail.length ≤ 59

/-- The well-formed instructions. -/
def Instr.wf : Instr → Bool
  | .uintImm0to15 _ _ => true
  | .uintImm16to23 _ _ => true
  | .uintArg8 _ => true
  | .uintArg16 _ => true
  | .uintArg32 _ => true
  | .uintArg64 _ => true
  | .uintRsvdAi28to31 _ _ => true
  | .nintImm0to15 _ _ => true
  | .nintImm16to23 _ _ => true
  | .nintArg8 _ => true
  | .nintArg16 _ => true
  | .nintArg32 _ => true
  | .nintArg64 _ => true
  | .nintRsvdAi28to31 _ _ => true
  | .bstrImm0to15 _ _ => true
  | .bstrImm16to23 _ _ => true
  | .bstrArg8 _ => true
  | .bstrArg16 _ => true
  | .bstrArg32 _ => true
  | .bstrArg64 _ => true
  | .bstrRsvdAi28to31 _ _ => true
  | .tstrImm0to15 _ _ => true
  | .tstrImm16to23 _ _ => true
  | .tstrArg8 _ => true
  | .tstrArg16 _ => true
  | .tstrArg32 _ => true
  | .tstrArg64 _ => true
  | .tstrRsvdAi28to31 _ _ => true
  | .arrayImm0to15 _ _ => true
  | .arrayImm16to23 _ _ => true
  | .arrayArg8 _ => true
  | .arrayArg16 _ => true
  | .arrayArg32 _ => true
  | .arrayArg64 _ => true
  | .arrayRsvdAi28to31 _ _ => true
  | .mapImm0to15 _ _ => true
  | .mapImm16to23 _ _ => true
  | .mapArg8 _ => true
  | .mapArg16 _ => true
  | .mapArg32 _ => true
  | .mapArg64 _ => true
  | .mapRsvdAi28to31 _ _ => true
  | .tagUnsupported _ _ => true
  | .simpleE0toEFInvalid _ _ => true
  | .simpleF0toF3Invalid _ _ => true
  | .cborFalse _ => true
  | .cborTrue _ => true
  | .simpleF6toF7Invalid _ _ => true
  | .simpleF8toFBInvalid _ _ => true
  | .simpleFCtoFFInvalid _ _ => true
  | .ctaphidPing _ tail => packetTailOk tail
  | .ctaphidMsg _ tail => packetTailOk tail
  | .ctaphidLock _ tail => packetTailOk tail
  | .ctaphidInit _ tail => packetTailOk tail
  | .ctaphidWink _ tail => packetTailOk tail
  | .ctaphidCbor _ tail => packetTailOk tail
  | .ctaphidCancel _ tail => packetTailOk tail
  | .ctaphidKeepalive _ tail => packetTailOk tail
  | .ctaphidError _ tail => packetTailOk tail
  | .ctaphidInitPacketOtherCmd _ cmd tail => packetTailOk tail && !(Machine.listedCommands.contains cmd)
  | .ctaphidContPacket _ _ tail => packetTailOk tail
  | .reset => true
  | .encode _ => true
  | .decode _ => true
  | .decodeAll _ => true
  | .handle pkt => pkt.length ≤ Machine.pktSize
  | .emit _ _ _ => true
  | .isBroadcast _ => true
  | .isValid _ => true
  | .hostOpRefused _ => true

end Sys2Proof
end

