-- ==== Sys2Proof/Decode.lean ====
section
/-! DEFINITION. Decoding the octets of the three encodings of spec/30_encoding.md into instructions, the encoder beside
it, and the opcode table with the host's question about single table words (logs 1, 2, 3). -/

namespace Sys2Proof

open Sys2Proof.Machine

/-- Which of the three encodings of 30_encoding.md the octets of a request are in: a CBOR item stream (R70), a CTAPHID
packet (R80, R81) or a host operation (R95). The octets alone do not tell: the spaces overlap. -/
inductive Format where
  | cbor
  | ctaphid
  | hostOp
  deriving DecidableEq, Repr

/-- What the host lays on the interface: octets in one of the encodings, and the value tree, which no octets carry
(R96) and only ENCODE reads. -/
structure Wire where
  format : Format
  octets : Octets
  tree : LogicalValue
  deriving DecidableEq, Repr

/-- Why octets are no instruction. -/
inductive DecodeError where
  /-- a CBOR stream without an initial octet -/
  | noInitialOctet
  /-- a packet without an octet 4 (R82) -/
  | noPacketKind (len : Nat)
  /-- a packet of more than 64 octets, which cannot be presented (20_memory.md R57) -/
  | packetTooLong (len : Nat)
  /-- a host request without an operation octet -/
  | noOperation
  /-- an operation octet whose high four bits are not zero: the codes are 4 bits wide (R95) -/
  | operationWidth (octet : Byte)
  /-- operand octets of a length the operation does not have -/
  | operandLength (code len : Nat)
  /-- an EMIT command of 128 or more, which cannot be presented (43_hid_emit.md R246) -/
  | commandWidth (octet : Byte)
  deriving DecidableEq, Repr

/-- A request whose octets carry everything. -/
def Wire.plain (f : Format) (o : Octets) : Wire := ⟨f, o, .int 0⟩

/-! ## Decoding -/

/-- The row of one major type 0..5, by the additional information (R71). -/
def decodeAi (imm : BitVec 4 → Octets → Instr) (imm16 : BitVec 3 → Octets → Instr)
    (arg8 arg16 arg32 arg64 : Octets → Instr) (rsvd : BitVec 2 → Octets → Instr)
    (ai : BitVec 5) (tail : Octets) : Instr :=
  if ai.toNat ≤ 15 then imm (ai.setWidth 4) tail
  else if ai.toNat ≤ 23 then imm16 (ai.setWidth 3) tail
  else if ai.toNat = 24 then arg8 tail
  else if ai.toNat = 25 then arg16 tail
  else if ai.toNat = 26 then arg32 tail
  else if ai.toNat = 27 then arg64 tail
  else rsvd (ai.setWidth 2) tail

/-- The row of major type 7, by the additional information (R78, R97). -/
def decodeSimple (ai : BitVec 5) (tail : Octets) : Instr :=
  if ai.toNat ≤ 15 then .simpleE0toEFInvalid (ai.setWidth 4) tail
  else if ai.toNat ≤ 19 then .simpleF0toF3Invalid (ai.setWidth 2) tail
  else if ai.toNat = 20 then .cborFalse tail
  else if ai.toNat = 21 then .cborTrue tail
  else if ai.toNat ≤ 23 then .simpleF6toF7Invalid (ai.setWidth 1) tail
  else if ai.toNat ≤ 27 then .simpleF8toFBInvalid (ai.setWidth 2) tail
  else .simpleFCtoFFInvalid (ai.setWidth 2) tail

/-- The row an initial octet belongs to; every octet has exactly one (R97). -/
def decodeInitial (ib : Byte) (tail : Octets) : Instr :=
  match (majorType ib).toNat with
  | 0 => decodeAi .uintImm0to15 .uintImm16to23 .uintArg8 .uintArg16 .uintArg32 .uintArg64 .uintRsvdAi28to31
      (additionalInfo ib) tail
  | 1 => decodeAi .nintImm0to15 .nintImm16to23 .nintArg8 .nintArg16 .nintArg32 .nintArg64 .nintRsvdAi28to31
      (additionalInfo ib) tail
  | 2 => decodeAi .bstrImm0to15 .bstrImm16to23 .bstrArg8 .bstrArg16 .bstrArg32 .bstrArg64 .bstrRsvdAi28to31
      (additionalInfo ib) tail
  | 3 => decodeAi .tstrImm0to15 .tstrImm16to23 .tstrArg8 .tstrArg16 .tstrArg32 .tstrArg64 .tstrRsvdAi28to31
      (additionalInfo ib) tail
  | 4 => decodeAi .arrayImm0to15 .arrayImm16to23 .arrayArg8 .arrayArg16 .arrayArg32 .arrayArg64 .arrayRsvdAi28to31
      (additionalInfo ib) tail
  | 5 => decodeAi .mapImm0to15 .mapImm16to23 .mapArg8 .mapArg16 .mapArg32 .mapArg64 .mapRsvdAi28to31
      (additionalInfo ib) tail
  | 6 => .tagUnsupported (additionalInfo ib) tail
  | _ => decodeSimple (additionalInfo ib) tail

/-- A CBOR stream: its first item's row, with the octets after the initial octet. -/
def decodeCbor : Octets → Except DecodeError Instr
  | [] => .error .noInitialOctet
  | ib :: tail => .ok (decodeInitial ib tail)

/-- The row of an initialization packet, by its command (R90, R98). -/
def decodeCommand (cid : Cid) (cmd : BitVec 7) (tail : Octets) : Instr :=
  if cmd = cmdPing then .ctaphidPing cid tail
  else if cmd = cmdMsg then .ctaphidMsg cid tail
  else if cmd = cmdLock then .ctaphidLock cid tail
  else if cmd = cmdInit then .ctaphidInit cid tail
  else if cmd = cmdWink then .ctaphidWink cid tail
  else if cmd = cmdCbor then .ctaphidCbor cid tail
  else if cmd = cmdCancel then .ctaphidCancel cid tail
  else if cmd = cmdKeepalive then .ctaphidKeepalive cid tail
  else if cmd = cmdError then .ctaphidError cid tail
  else .ctaphidInitPacketOtherCmd cid cmd tail

/-- A CTAPHID packet: octet 4 tells the kinds apart (R82), so a packet of fewer than 5 octets is of neither row (the
host operation HANDLE takes it), and one of more than 64 cannot be presented (20_memory.md R57). -/
def decodePacket (pkt : Octets) : Except DecodeError Instr :=
  if pkt.length < 5 then .error (.noPacketKind pkt.length)
  else if pktSize < pkt.length then .error (.packetTooLong pkt.length)
  else if isInitPacket pkt then .ok (decodeCommand (pktCid pkt) (pktCmd pkt) (pkt.drop 5))
  else .ok (.ctaphidContPacket (pktCid pkt) (pktSeq pkt) (pkt.drop 5))

/-- The operand of EMIT on the wire: command octet, 4 cid octets, payload (log 2). -/
def decodeEmit : Octets → Except DecodeError Instr
  | c :: o0 :: o1 :: o2 :: o3 :: payload =>
    if c.msb then .error (.commandWidth c) else .ok (.emit (c.setWidth 7) ⟨o0, o1, o2, o3⟩ payload)
  | o => .error (.operandLength 5 o.length)

/-- The operand of the channel predicates on the wire: exactly 4 cid octets (R96). -/
def decodeCid (mk : Cid → Instr) (code : Nat) : Octets → Except DecodeError Instr
  | [o0, o1, o2, o3] => .ok (mk ⟨o0, o1, o2, o3⟩)
  | o => .error (.operandLength code o.length)

/-- An operation that takes no operand octets. -/
def decodeBare (i : Instr) (code : Nat) : Octets → Except DecodeError Instr
  | [] => .ok i
  | o => .error (.operandLength code o.length)

/-- A host operation: the operation octet and its operand octets (R95, log 2). -/
def decodeHostOp (tree : LogicalValue) : Octets → Except DecodeError Instr
  | [] => .error .noOperation
  | op :: rest =>
    match op.toNat with
    | 0 => decodeBare .reset 0 rest
    | 1 => decodeBare (.encode tree) 1 rest
    | 2 => .ok (.decode rest)
    | 3 => .ok (.decodeAll rest)
    | 4 => if pktSize < rest.length then .error (.packetTooLong rest.length) else .ok (.handle rest)
    | 5 => decodeEmit rest
    | 6 => decodeCid .isBroadcast 6 rest
    | 7 => decodeCid .isValid 7 rest
    | n => if n ≤ 15 then .ok (.hostOpRefused (op.setWidth 3)) else .error (.operationWidth op)

/-- The instruction of a request; total on any octets, rejecting by name. -/
def decodeWire (w : Wire) : Except DecodeError Instr :=
  match w.format with
  | .cbor => decodeCbor w.octets
  | .ctaphid => decodePacket w.octets
  | .hostOp => decodeHostOp w.tree w.octets

/-! ## Encoding -/

/-- The initial octet of a row of major type mt whose additional information is ai. -/
def cborWire (ib : Byte) (tail : Octets) : Wire := .plain .cbor (ib :: tail)

/-- An initialization packet (R80). -/
def initWire (cid : Cid) (cmd : BitVec 7) (tail : Octets) : Wire :=
  .plain .ctaphid (cidOctets cid ++ initOctet cmd :: tail)

/-- The request that carries an instruction, from the encoding tables of 30_encoding.md. -/
def encodeInstr : Instr → Wire
  | .uintImm0to15 ai tail => cborWire (BitVec.ofNat 4 0 ++ ai) tail
  | .uintImm16to23 lo tail => cborWire (BitVec.ofNat 5 2 ++ lo) tail
  | .uintArg8 tail => cborWire 0x18 tail
  | .uintArg16 tail => cborWire 0x19 tail
  | .uintArg32 tail => cborWire 0x1A tail
  | .uintArg64 tail => cborWire 0x1B tail
  | .uintRsvdAi28to31 lo tail => cborWire (BitVec.ofNat 6 7 ++ lo) tail
  | .nintImm0to15 ai tail => cborWire (BitVec.ofNat 4 2 ++ ai) tail
  | .nintImm16to23 lo tail => cborWire (BitVec.ofNat 5 6 ++ lo) tail
  | .nintArg8 tail => cborWire 0x38 tail
  | .nintArg16 tail => cborWire 0x39 tail
  | .nintArg32 tail => cborWire 0x3A tail
  | .nintArg64 tail => cborWire 0x3B tail
  | .nintRsvdAi28to31 lo tail => cborWire (BitVec.ofNat 6 15 ++ lo) tail
  | .bstrImm0to15 ai tail => cborWire (BitVec.ofNat 4 4 ++ ai) tail
  | .bstrImm16to23 lo tail => cborWire (BitVec.ofNat 5 10 ++ lo) tail
  | .bstrArg8 tail => cborWire 0x58 tail
  | .bstrArg16 tail => cborWire 0x59 tail
  | .bstrArg32 tail => cborWire 0x5A tail
  | .bstrArg64 tail => cborWire 0x5B tail
  | .bstrRsvdAi28to31 lo tail => cborWire (BitVec.ofNat 6 23 ++ lo) tail
  | .tstrImm0to15 ai tail => cborWire (BitVec.ofNat 4 6 ++ ai) tail
  | .tstrImm16to23 lo tail => cborWire (BitVec.ofNat 5 14 ++ lo) tail
  | .tstrArg8 tail => cborWire 0x78 tail
  | .tstrArg16 tail => cborWire 0x79 tail
  | .tstrArg32 tail => cborWire 0x7A tail
  | .tstrArg64 tail => cborWire 0x7B tail
  | .tstrRsvdAi28to31 lo tail => cborWire (BitVec.ofNat 6 31 ++ lo) tail
  | .arrayImm0to15 ai tail => cborWire (BitVec.ofNat 4 8 ++ ai) tail
  | .arrayImm16to23 lo tail => cborWire (BitVec.ofNat 5 18 ++ lo) tail
  | .arrayArg8 tail => cborWire 0x98 tail
  | .arrayArg16 tail => cborWire 0x99 tail
  | .arrayArg32 tail => cborWire 0x9A tail
  | .arrayArg64 tail => cborWire 0x9B tail
  | .arrayRsvdAi28to31 lo tail => cborWire (BitVec.ofNat 6 39 ++ lo) tail
  | .mapImm0to15 ai tail => cborWire (BitVec.ofNat 4 10 ++ ai) tail
  | .mapImm16to23 lo tail => cborWire (BitVec.ofNat 5 22 ++ lo) tail
  | .mapArg8 tail => cborWire 0xB8 tail
  | .mapArg16 tail => cborWire 0xB9 tail
  | .mapArg32 tail => cborWire 0xBA tail
  | .mapArg64 tail => cborWire 0xBB tail
  | .mapRsvdAi28to31 lo tail => cborWire (BitVec.ofNat 6 47 ++ lo) tail
  | .tagUnsupported ai tail => cborWire (BitVec.ofNat 3 6 ++ ai) tail
  | .simpleE0toEFInvalid lo tail => cborWire (BitVec.ofNat 4 14 ++ lo) tail
  | .simpleF0toF3Invalid lo tail => cborWire (BitVec.ofNat 6 60 ++ lo) tail
  | .cborFalse tail => cborWire 0xF4 tail
  | .cborTrue tail => cborWire 0xF5 tail
  | .simpleF6toF7Invalid lo tail => cborWire (BitVec.ofNat 7 123 ++ lo) tail
  | .simpleF8toFBInvalid lo tail => cborWire (BitVec.ofNat 6 62 ++ lo) tail
  | .simpleFCtoFFInvalid lo tail => cborWire (BitVec.ofNat 6 63 ++ lo) tail
  | .ctaphidPing cid tail => initWire cid cmdPing tail
  | .ctaphidMsg cid tail => initWire cid cmdMsg tail
  | .ctaphidLock cid tail => initWire cid cmdLock tail
  | .ctaphidInit cid tail => initWire cid cmdInit tail
  | .ctaphidWink cid tail => initWire cid cmdWink tail
  | .ctaphidCbor cid tail => initWire cid cmdCbor tail
  | .ctaphidCancel cid tail => initWire cid cmdCancel tail
  | .ctaphidKeepalive cid tail => initWire cid cmdKeepalive tail
  | .ctaphidError cid tail => initWire cid cmdError tail
  | .ctaphidInitPacketOtherCmd cid cmd tail => initWire cid cmd tail
  | .ctaphidContPacket cid seq tail => .plain .ctaphid (cidOctets cid ++ contOctet seq :: tail)
  | .reset => .plain .hostOp [0x00]
  | .encode v => ⟨.hostOp, [0x01], v⟩
  | .decode b => .plain .hostOp (0x02 :: b)
  | .decodeAll b => .plain .hostOp (0x03 :: b)
  | .handle pkt => .plain .hostOp (0x04 :: pkt)
  | .emit cmd cid payload => .plain .hostOp (0x05 :: contOctet cmd :: (cidOctets cid ++ payload))
  | .isBroadcast cid => .plain .hostOp (0x06 :: cidOctets cid)
  | .isValid cid => .plain .hostOp (0x07 :: cidOctets cid)
  | .hostOpRefused code => .plain .hostOp [(BitVec.ofNat 5 1 ++ code)]

/-! ## The opcode table -/

/-- One row of spec/opcode_table.json: the octet (initial octet, octet 4, or 4-bit operation code) with its mask. -/
structure OpcodeRow where
  mnemonic : String
  format : Format
  pattern : Nat
  mask : Nat
  deriving DecidableEq, Repr

/-- How many bits a row's code has: an octet, or the 4 bits of an operation code (R95). -/
def OpcodeRow.width (r : OpcodeRow) : Nat := match r.format with | .hostOp => 4 | .cbor => 8 | .ctaphid => 8

/-- Does a code belong to the row. -/
def OpcodeRow.fits (r : OpcodeRow) (code : Nat) : Bool := code < 2 ^ r.width && code &&& r.mask == r.pattern

/-- How many bits of the code the row leaves open. -/
def OpcodeRow.openBits (r : OpcodeRow) : Nat := (List.range r.width).countP fun i => !r.mask.testBit i

/-- The rows of major types 0 and 1. -/
def cborIntegerRows : List OpcodeRow :=
  [⟨"UINT_IMM_0_15", .cbor, 0x00, 0xF0⟩,
   ⟨"UINT_IMM_16_23", .cbor, 0x10, 0xF8⟩,
   ⟨"UINT_ARG8", .cbor, 0x18, 0xFF⟩,
   ⟨"UINT_ARG16", .cbor, 0x19, 0xFF⟩,
   ⟨"UINT_ARG32", .cbor, 0x1A, 0xFF⟩,
   ⟨"UINT_ARG64", .cbor, 0x1B, 0xFF⟩,
   ⟨"UINT_RSVD_AI28_31", .cbor, 0x1C, 0xFC⟩,
   ⟨"NINT_IMM_0_15", .cbor, 0x20, 0xF0⟩,
   ⟨"NINT_IMM_16_23", .cbor, 0x30, 0xF8⟩,
   ⟨"NINT_ARG8", .cbor, 0x38, 0xFF⟩,
   ⟨"NINT_ARG16", .cbor, 0x39, 0xFF⟩,
   ⟨"NINT_ARG32", .cbor, 0x3A, 0xFF⟩,
   ⟨"NINT_ARG64", .cbor, 0x3B, 0xFF⟩,
   ⟨"NINT_RSVD_AI28_31", .cbor, 0x3C, 0xFC⟩]

/-- The rows of major types 2 and 3. -/
def cborStringRows : List OpcodeRow :=
  [⟨"BSTR_IMM_0_15", .cbor, 0x40, 0xF0⟩,
   ⟨"BSTR_IMM_16_23", .cbor, 0x50, 0xF8⟩,
   ⟨"BSTR_ARG8", .cbor, 0x58, 0xFF⟩,
   ⟨"BSTR_ARG16", .cbor, 0x59, 0xFF⟩,
   ⟨"BSTR_ARG32", .cbor, 0x5A, 0xFF⟩,
   ⟨"BSTR_ARG64", .cbor, 0x5B, 0xFF⟩,
   ⟨"BSTR_RSVD_AI28_31", .cbor, 0x5C, 0xFC⟩,
   ⟨"TSTR_IMM_0_15", .cbor, 0x60, 0xF0⟩,
   ⟨"TSTR_IMM_16_23", .cbor, 0x70, 0xF8⟩,
   ⟨"TSTR_ARG8", .cbor, 0x78, 0xFF⟩,
   ⟨"TSTR_ARG16", .cbor, 0x79, 0xFF⟩,
   ⟨"TSTR_ARG32", .cbor, 0x7A, 0xFF⟩,
   ⟨"TSTR_ARG64", .cbor, 0x7B, 0xFF⟩,
   ⟨"TSTR_RSVD_AI28_31", .cbor, 0x7C, 0xFC⟩]

/-- The rows of major types 4 and 5. -/
def cborContainerRows : List OpcodeRow :=
  [⟨"ARRAY_IMM_0_15", .cbor, 0x80, 0xF0⟩,
   ⟨"ARRAY_IMM_16_23", .cbor, 0x90, 0xF8⟩,
   ⟨"ARRAY_ARG8", .cbor, 0x98, 0xFF⟩,
   ⟨"ARRAY_ARG16", .cbor, 0x99, 0xFF⟩,
   ⟨"ARRAY_ARG32", .cbor, 0x9A, 0xFF⟩,
   ⟨"ARRAY_ARG64", .cbor, 0x9B, 0xFF⟩,
   ⟨"ARRAY_RSVD_AI28_31", .cbor, 0x9C, 0xFC⟩,
   ⟨"MAP_IMM_0_15", .cbor, 0xA0, 0xF0⟩,
   ⟨"MAP_IMM_16_23", .cbor, 0xB0, 0xF8⟩,
   ⟨"MAP_ARG8", .cbor, 0xB8, 0xFF⟩,
   ⟨"MAP_ARG16", .cbor, 0xB9, 0xFF⟩,
   ⟨"MAP_ARG32", .cbor, 0xBA, 0xFF⟩,
   ⟨"MAP_ARG64", .cbor, 0xBB, 0xFF⟩,
   ⟨"MAP_RSVD_AI28_31", .cbor, 0xBC, 0xFC⟩]

/-- The rows of major types 6 and 7. -/
def cborOtherRows : List OpcodeRow :=
  [⟨"TAG_UNSUPPORTED", .cbor, 0xC0, 0xE0⟩,
   ⟨"SIMPLE_E0_EF_INVALID", .cbor, 0xE0, 0xF0⟩,
   ⟨"SIMPLE_F0_F3_INVALID", .cbor, 0xF0, 0xFC⟩,
   ⟨"FALSE", .cbor, 0xF4, 0xFF⟩,
   ⟨"TRUE", .cbor, 0xF5, 0xFF⟩,
   ⟨"SIMPLE_F6_F7_INVALID", .cbor, 0xF6, 0xFE⟩,
   ⟨"SIMPLE_F8_FB_INVALID", .cbor, 0xF8, 0xFC⟩,
   ⟨"SIMPLE_FC_FF_INVALID", .cbor, 0xFC, 0xFC⟩]

/-- The rows of octet 4 of a packet. -/
def ctaphidRows : List OpcodeRow :=
  [⟨"CTAPHID_PING", .ctaphid, 0x81, 0xFF⟩,
   ⟨"CTAPHID_MSG", .ctaphid, 0x83, 0xFF⟩,
   ⟨"CTAPHID_LOCK", .ctaphid, 0x84, 0xFF⟩,
   ⟨"CTAPHID_INIT", .ctaphid, 0x86, 0xFF⟩,
   ⟨"CTAPHID_WINK", .ctaphid, 0x88, 0xFF⟩,
   ⟨"CTAPHID_CBOR", .ctaphid, 0x90, 0xFF⟩,
   ⟨"CTAPHID_CANCEL", .ctaphid, 0x91, 0xFF⟩,
   ⟨"CTAPHID_KEEPALIVE", .ctaphid, 0xBB, 0xFF⟩,
   ⟨"CTAPHID_ERROR", .ctaphid, 0xBF, 0xFF⟩,
   ⟨"CTAPHID_INIT_PACKET_OTHER_CMD", .ctaphid, 0x80, 0x80⟩,
   ⟨"CTAPHID_CONT_PACKET", .ctaphid, 0x00, 0x80⟩]

/-- The rows of the host operation codes. -/
def hostOpRows : List OpcodeRow :=
  [⟨"RESET", .hostOp, 0x00, 0x0F⟩,
   ⟨"ENCODE", .hostOp, 0x01, 0x0F⟩,
   ⟨"DECODE", .hostOp, 0x02, 0x0F⟩,
   ⟨"DECODE_ALL", .hostOp, 0x03, 0x0F⟩,
   ⟨"HANDLE", .hostOp, 0x04, 0x0F⟩,
   ⟨"EMIT", .hostOp, 0x05, 0x0F⟩,
   ⟨"IS_BROADCAST", .hostOp, 0x06, 0x0F⟩,
   ⟨"IS_VALID", .hostOp, 0x07, 0x0F⟩,
   ⟨"HOST_OP_REFUSED", .hostOp, 0x08, 0x08⟩]

/-- The opcode table, in the table's order. -/
def opcodeRows : List OpcodeRow :=
  cborIntegerRows ++ cborStringRows ++ cborContainerRows ++ cborOtherRows ++ ctaphidRows ++ hostOpRows

/-! ## One table word (log 3)

A table word does not say its format, and the three code spaces overlap. The row that leaves the fewest bits open is
taken, the first in the table's order where several do. -/

/-- Of two candidate rows, the one that leaves fewer bits open; the first where they leave equally many. -/
def narrower (best : Option OpcodeRow) (r : OpcodeRow) : Option OpcodeRow :=
  match best with
  | none => some r
  | some b => if r.openBits < b.openBits then some r else some b

/-- The format a table word is read in: that of the narrowest row it fits. -/
def tableFormat (code : Nat) : Format :=
  match (opcodeRows.filter (·.fits code)).foldl narrower none with
  | some r => r.format
  | none => .cbor

/-- The octets of a table word, its low octet first. -/
def tableOctets (nbits w : Nat) : Octets :=
  (List.range ((nbits + 7) / 8)).map fun k => BitVec.ofNat 8 (w / 256 ^ k)

/-- An octet string continued with zeros to n octets. -/
def padTo (n : Nat) (o : Octets) : Octets := o ++ zeros (n - o.length)

/-- The zero operand octets of a host operation: an empty operand for RESET and ENCODE (whose tree is the integer 0), a
one-octet input for the decoder, a 64-octet packet, command 0 on the channel of zeros with no payload, a cid of zeros. -/
def zeroOperands (code : Nat) : Nat :=
  match code with
  | 2 => 1
  | 3 => 1
  | 4 => 64
  | 5 => 5
  | 6 => 4
  | 7 => 4
  | _ => 0

/-- The request a table word stands for, every octet beyond the word zero: a CBOR stream of 64 octets, a packet of 64
octets whose octet 4 is the word, or a host operation with zero operands. -/
def tableWire (nbits w : Nat) : Wire :=
  match tableFormat (w % 256) with
  | .cbor => .plain .cbor (padTo 64 (tableOctets nbits w))
  | .ctaphid => .plain .ctaphid (padTo 64 (zeros 4 ++ tableOctets nbits w))
  | .hostOp => .plain .hostOp (padTo (1 + zeroOperands (w % 16)) (tableOctets nbits w))

/-- The instruction the decoder reads from a table word. -/
def decodeTableWord (nbits w : Nat) : Option Instr :=
  match decodeWire (tableWire nbits w) with
  | .ok i => some i
  | .error _ => none

end Sys2Proof
end

