-- ==== Sys2Proof/Machine/State.lean ====
section
/-! DEFINITION. The state of the block and of the run (spec/10_state.md R28-R36, 60_exceptions.md R285-R287,
70_reset_and_hazards.md R312), the results of operations (00_scope.md R12), the reasons a step stops, and reset
(10_state.md R34, 70_reset_and_hazards.md R300). Plain data throughout. -/

namespace Sys2Proof.Machine

/-- The fields of a record in `Assembling` (R28). -/
structure Assembly where
  cid : Cid
  cmd : BitVec 7
  bcnt : BitVec 16
  received : Octets
  seqLast : Option (BitVec 7)
  beginTs : Int
  deriving DecidableEq, Repr

/-- The state record `S.st` (R28): in `Idle` the fields do not exist. -/
inductive FramerState where
  | idle
  | assembling (a : Assembly)
  deriving DecidableEq, Repr

/-- One framer instance: its record (R28), its allocated set `S.channels` (R30, kept as a strictly rising list,
log 13) and its configuration (R32). -/
structure Framer where
  st : FramerState
  channels : List Cid
  config : FramerConfig
  deriving DecidableEq, Repr

/-- A fresh instance of a configuration (R34, 70_reset_and_hazards.md R300). -/
def Framer.fresh (c : FramerConfig) : Framer := ⟨.idle, [], c⟩

/-- A delivered message `{cid, cmd, data}` (00_scope.md R12). -/
structure Message where
  cid : Cid
  cmd : BitVec 7
  data : Octets
  deriving DecidableEq, Repr

/-- What `Ok` carries for HANDLE (42_hid_reassembly.md R190). -/
inductive FramerResult where
  | complete (m : Message)
  | inProgress
  deriving DecidableEq, Repr

/-- The errors returned as `Err` (60_exceptions.md R270); framing errors are never among them (R272). -/
inductive OpError where
  | invalidCbor (offset : Nat)
  | outOfRange
  | unsupported
  | duplicateKey
  | emitTooLong
  deriving DecidableEq, Repr

/-- The outputs of the operations (30_encoding.md R95, result column). -/
inductive Payload where
  /-- RESET has no output -/
  | nothing
  /-- the octets ENCODE wrote -/
  | encoded (b : Octets)
  /-- the value and the number of octets DECODE consumed -/
  | decoded (v : LogicalValue) (consumed : Nat)
  /-- the value of DECODE_ALL -/
  | decodedAll (v : LogicalValue)
  /-- the framer result of HANDLE -/
  | handled (r : FramerResult)
  /-- the packets of EMIT, in order -/
  | packets (ps : List Octets)
  /-- the answer of a channel predicate -/
  | flag (t : Bool)
  deriving DecidableEq, Repr

/-- The result of an operation: exactly one of Ok and Err (00_scope.md R12). -/
inductive Result where
  | ok (p : Payload)
  | err (e : OpError)
  deriving DecidableEq, Repr

/-- One operation of a run, with the instance it addresses (60_exceptions.md R287), its clock sample and its RNG
answer (70_reset_and_hazards.md R312). -/
structure Request where
  inst : Nat
  now : Int
  rng : Cid
  wire : Wire
  deriving DecidableEq, Repr

/-- The state. `framer` is the instance the current operation addresses and `inst` its number; `parked` holds the other
instances by number (log 7). `codec` and the configuration inside a framer are written by no operation (R302).
`clock` and `rng` are what the two ports present (60_exceptions.md R285, R286), `clockSamples` and `rngDraws` count how
often they were read (log 5). `pending` is what the host still issues and `results` what it has received, oldest first
(R312; logs 4, 6). -/
structure State where
  framer : Framer
  inst : Nat
  parked : List (Nat × Framer)
  codec : CodecConfig
  clock : Int
  rng : Cid
  clockSamples : Nat
  rngDraws : Nat
  pending : List Request
  results : List Result
  deriving DecidableEq, Repr

/-- Why the machine stops. No operation stops it (42_hid_reassembly.md R231, 93_implementation_defined.md Part 1). -/
inductive Fault where
  /-- raised by step when the host has issued no operation: the run is over (70_reset_and_hazards.md R312); safe -/
  | noOperation
  deriving DecidableEq, Repr

/-- Why a step has no meaning. -/
inductive Refusal where
  /-- raised by an arm of exec whose instruction has no meaning yet; safe -/
  | notModelled (mnemonic : String)
  /-- raised by HOST_OP_REFUSED: the operation code 8 + code names no operation (30_encoding.md R99); safe -/
  | operationUnassigned (code : BitVec 3)
  /-- raised by HANDLE and the packet rows on a packet of more than 64 octets, which is outside the host's contract
  (20_memory.md R57, 93_implementation_defined.md I15); safe -/
  | packetTooLong (len : Nat)
  /-- raised by step when the octets of the request are no instruction of the table; safe -/
  | undecodable (e : DecodeError)
  /-- raised by step when the request addresses a framer instance that does not exist (log 7); safe -/
  | noSuchInstance (inst : Nat)
  deriving DecidableEq, Repr

/-- The block after reset: one fresh instance of the default configuration (R34, R300), the reference parameters
(00_scope.md R7), nothing issued and nothing received. The values of the two ports and of the model's own counters are
the model's choice (log 5). -/
def State.reset : State where
  framer := Framer.fresh FramerConfig.reference
  inst := 0
  parked := []
  codec := CodecConfig.reference
  clock := 0
  rng := ⟨0, 0, 0, 0⟩
  clockSamples := 0
  rngDraws := 0
  pending := []
  results := []

end Sys2Proof.Machine
end

