-- ==== Sys2Proof/Machine/Ops.lean ====
section
/-! DEFINITION. The named operations over the state: returning a result, the two ports, the record and the channel set,
the delivery of a framing error (spec/42_hid_reassembly.md R207), and taking the host's next request. -/

namespace Sys2Proof.Machine

/-- The three outcomes of a step of this machine. -/
abbrev StepOutcome := Host.Outcome State Fault Refusal

/-! ## Results -/

/-- The operation ends with the result r, which joins the results of the run (00_scope.md R12, 70 R312). -/
def State.answer (s : State) (r : Result) : State := { s with results := s.results ++ [r] }

/-! ## The record -/

/-- `S.st <- st`. -/
def State.setSt (s : State) (st : FramerState) : State := { s with framer := { s.framer with st := st } }

/-! ## The ports -/

/-- One sample of the clock port (60_exceptions.md R286): the value is `clock`, and the sample is counted. -/
def State.sampleClock (s : State) : State := { s with clockSamples := s.clockSamples + 1 }

/-- One draw from the RNG port (60_exceptions.md R285): the answer is `rng`, and the draw is counted. -/
def State.countDraw (s : State) : State := { s with rngDraws := s.rngDraws + 1 }

/-! ## The channel set (10_state.md R30) -/

/-- The place of a cid in the canonical order of the set, and nothing else: no rule uses a cid as a number (R52). -/
def cidKey (c : Cid) : Nat := uintBe (cidOctets c)

/-- Membership. -/
def hasChannel (cs : List Cid) (c : Cid) : Bool := cs.contains c

/-- The set with one more member, in canonical form; unchanged where it is a member already (R30). -/
def insertChannel (c : Cid) : List Cid → List Cid
  | [] => [c]
  | x :: xs => if c = x then x :: xs else if cidKey c < cidKey x then c :: x :: xs else x :: insertChannel c xs

/-- `S.channels <- S.channels ∪ { c }` (42_hid_reassembly.md R221). -/
def State.addChannel (s : State) (c : Cid) : State :=
  { s with framer := { s.framer with channels := insertChannel c s.framer.channels } }

/-! ## Framer results -/

/-- The end of a HANDLE: the state it leaves and its framer result (42_hid_reassembly.md R190). -/
abbrev Handled := State × FramerResult

/-- The channel a framing error is addressed to: the in-progress cid, or broadcast if there is none (R207). -/
def errorCid : FramerState → Cid
  | .idle => broadcastCid
  | .assembling a => a.cid

/-- `error(code)`: every framing error is delivered as a complete message of command ERROR, and the record is reset to
`Idle` (R207, 60_exceptions.md R272, R276). -/
def deliverError (code : Byte) (s : State) : Handled :=
  (s.setSt .idle, .complete ⟨errorCid s.framer.st, cmdError, [code]⟩)

/-- A HANDLE ends with its framer result, always `Ok` (R190). -/
def finishHandle (h : Handled) : StepOutcome := .next (h.1.answer (.ok (.handled h.2)))

/-! ## Reset (70_reset_and_hazards.md R300) -/

/-- The addressed instance ends and a fresh one of the same configuration starts. -/
def State.freshFramer (s : State) : State := { s with framer := Framer.fresh s.framer.config }

/-! ## Instances (60_exceptions.md R287, log 7) -/

/-- Store the record of an instance under its number, in rising order of the numbers. -/
def parkInstance (n : Nat) (f : Framer) : List (Nat × Framer) → List (Nat × Framer)
  | [] => [(n, f)]
  | x :: xs => if n < x.1 then (n, f) :: x :: xs else x :: parkInstance n f xs

/-- Make instance n the addressed one; none where there is no such instance. -/
def selectInstance (n : Nat) (s : State) : Option State :=
  if n = s.inst then some s
  else (s.parked.lookup n).map fun f =>
    { s with inst := n, framer := f, parked := parkInstance s.inst s.framer (s.parked.filter fun x => x.1 != n) }

/-! ## The host's next request (70_reset_and_hazards.md R312) -/

/-- The two ports present the values paired with the request, and the request is no longer pending. -/
def State.present (s : State) (r : Request) (rest : List Request) : State :=
  { s with clock := r.now, rng := r.rng, pending := rest }

/-- A request of the current ports for the addressed instance, placed before all pending ones. -/
def State.issue (s : State) (w : Wire) : State :=
  { s with pending := ⟨s.inst, s.clock, s.rng, w⟩ :: s.pending }

end Sys2Proof.Machine
end

