-- ==== Sys2Proof/Machine/Value.lean ====
section
/-! DEFINITION. Value equality on logical values and its lists (spec/10_state.md R26). -/

namespace Sys2Proof

/-- The number of elements, `len(vs)`. -/
def LogicalValues.length : LogicalValues → Nat
  | .nil => 0
  | .cons _ vs => vs.length + 1

/-- The number of pairs, `len(ps)`. -/
def LogicalPairs.length : LogicalPairs → Nat
  | .nil => 0
  | .cons _ _ ps => ps.length + 1

/-- The elements as a list. -/
def LogicalValues.toList : LogicalValues → List LogicalValue
  | .nil => []
  | .cons v vs => v :: vs.toList

/-- The pairs as a list. -/
def LogicalPairs.toList : LogicalPairs → List (LogicalValue × LogicalValue)
  | .nil => []
  | .cons k v ps => (k, v) :: ps.toList

/-- The elements from a list. -/
def LogicalValues.ofList : List LogicalValue → LogicalValues
  | [] => .nil
  | v :: vs => .cons v (LogicalValues.ofList vs)

/-- The pairs from a list. -/
def LogicalPairs.ofList : List (LogicalValue × LogicalValue) → LogicalPairs
  | [] => .nil
  | p :: ps => .cons p.1 p.2 (LogicalPairs.ofList ps)

/-- The keys, in list order. -/
def LogicalPairs.keys : LogicalPairs → List LogicalValue
  | .nil => []
  | .cons k _ ps => k :: ps.keys

mutual

/-- `a ≈ b` (R26): constructor by constructor; `Other` is equal to nothing. -/
def LogicalValue.equiv : LogicalValue → LogicalValue → Bool
  | .int x, w => match w with | .int y => x == y | _ => false
  | .bytes x, w => match w with | .bytes y => x == y | _ => false
  | .text x, w => match w with | .text y => x == y | _ => false
  | .bool x, w => match w with | .bool y => x == y | _ => false
  | .array us, w => match w with | .array vs => us.equiv vs | _ => false
  | .map ps, w => match w with | .map qs => ps.length == qs.length && ps.matchedIn qs.toList | _ => false
  | .other _, _ => false

/-- The lists have equal lengths and agree pairwise under `≈`. -/
def LogicalValues.equiv : LogicalValues → LogicalValues → Bool
  | .nil, w => match w with | .nil => true | .cons _ _ => false
  | .cons u us, w => match w with | .nil => false | .cons v vs => u.equiv v && us.equiv vs

/-- Every pair has exactly one pair of qs with an `≈` key and an `≈` value. -/
def LogicalPairs.matchedIn : LogicalPairs → List (LogicalValue × LogicalValue) → Bool
  | .nil, _ => true
  | .cons k v ps, qs => qs.countP (fun q => k.equiv q.1 && v.equiv q.2) == 1 && ps.matchedIn qs

end

/-- Two keys of the list are `≈` (40_cbor_encode.md R111, R126). -/
def hasDuplicateKey : List LogicalValue → Bool
  | [] => false
  | k :: ks => ks.any (fun k' => k.equiv k') || hasDuplicateKey ks

end Sys2Proof
end

