-- ==== Sys2Proof/Machine/CborEncode.lean ====
section
/-! DEFINITION. ENCODE: the operand check, the heads, one rule per value kind, and the canonical key order
(spec/30_encoding.md R73, 40_cbor_encode.md R110-R122, R126). -/

namespace Sys2Proof.Machine

/-! ## The operand check (R111) -/

/-- A node at depth d is too deep for a finite MAX_DEPTH (R119, 41_cbor_decode.md R164). -/
def tooDeep (cfg : CodecConfig) (d : Nat) : Bool :=
  match cfg.maxDepth with
  | none => false
  | some k => k < d

/-- The depth test comes before every other test at a node (R111, R119). -/
def atDepth (cfg : CodecConfig) (d : Nat) (rest : Option OpError) : Option OpError :=
  if tooDeep cfg d then some .unsupported else rest

/-- INT_MIN..INT_MAX (R111, 00_scope.md R7). -/
def intError (z : Int) : Option OpError :=
  if z < -(2 ^ 64) ∨ 2 ^ 64 - 1 < z then some .outOfRange else none

/-- A length or count that no head carries (R111). -/
def lengthError (n : Nat) : Option OpError := if 2 ^ 64 ≤ n then some .outOfRange else none

mutual

/-- `check(v, d)` (R111): the first error in pre-order, none where the operand can be encoded. -/
def checkValue (cfg : CodecConfig) : LogicalValue → Nat → Option OpError
  | .int z, d => atDepth cfg d (intError z)
  | .bytes b, d => atDepth cfg d (lengthError b.length)
  | .text b, d => atDepth cfg d (lengthError b.length)
  | .array vs, d => atDepth cfg d ((lengthError vs.length).or (checkValues cfg vs (d + 1)))
  | .map ps, d =>
    atDepth cfg d ((lengthError ps.length).or ((checkPairs cfg ps (d + 1)).or
      (if hasDuplicateKey ps.keys then some .duplicateKey else none)))
  | .bool _, d => atDepth cfg d none
  | .other _, d => atDepth cfg d (some .unsupported)

/-- The elements, in list order. -/
def checkValues (cfg : CodecConfig) : LogicalValues → Nat → Option OpError
  | .nil, _ => none
  | .cons v vs, d => (checkValue cfg v d).or (checkValues cfg vs d)

/-- The pairs, in input order, each key before its value. -/
def checkPairs (cfg : CodecConfig) : LogicalPairs → Nat → Option OpError
  | .nil, _ => none
  | .cons k v ps, d => (checkValue cfg k d).or ((checkValue cfg v d).or (checkPairs cfg ps d))

end

/-! ## Heads (30_encoding.md R73) -/

/-- `head(mt, a)`: the shortest head of argument a, the encoder's only way to write one. -/
def head (mt : BitVec 3) (a : Nat) : Octets :=
  if a ≤ 23 then [initialOctet mt (BitVec.ofNat 5 a)]
  else if a ≤ 255 then initialOctet mt 24 :: beOctets 1 a
  else if a ≤ 65535 then initialOctet mt 25 :: beOctets 2 a
  else if a ≤ 2 ^ 32 - 1 then initialOctet mt 26 :: beOctets 4 a
  else initialOctet mt 27 :: beOctets 8 a

/-! ## The canonical key order (R120-R122) -/

/-- At the first index where they differ, x has the smaller unsigned octet (R120). -/
def lexLt : Octets → Octets → Bool
  | x :: xs, y :: ys => if x = y then lexLt xs ys else x.toNat < y.toNat
  | _, _ => false

/-- Shorter first, equal lengths lexicographically: the source's rules 2 and 3 on strings (R120) and `enc_lt` on
encodings (R121). -/
def octetsLt (x y : Octets) : Bool := if x.length = y.length then lexLt x y else x.length < y.length

/-- `neg_lt` by the parameter NEG_KEY_ORDER (R122). -/
def negLt (ord : NegKeyOrder) (x y : Int) : Bool :=
  match ord with
  | .numeric => x < y
  | .encoded => y < x

/-- The major type of a key (R120); an `Other` has none and is never a key here, since the check refused it (R118). -/
def keyMajor : LogicalValue → Nat
  | .int z => if 0 ≤ z then 0 else 1
  | .bytes _ => 2
  | .text _ => 3
  | .array _ => 4
  | .map _ => 5
  | .bool _ => 7
  | .other _ => 8

/-- A map entry with the encodings of its key and value. -/
structure Entry where
  key : LogicalValue
  keyOctets : Octets
  valueOctets : Octets
  deriving DecidableEq, Repr

/-- `key_lt(a, b)` (R120-R122). -/
def keyLt (ord : NegKeyOrder) (a b : Entry) : Bool :=
  if keyMajor a.key ≠ keyMajor b.key then keyMajor a.key < keyMajor b.key
  else match a.key, b.key with
    | .bytes x, .bytes y => octetsLt x y
    | .text x, .text y => octetsLt x y
    | .int x, .int y => if 0 ≤ x then x < y else negLt ord x y
    | _, _ => octetsLt a.keyOctets b.keyOctets

/-- One more entry in its place in the ascending order. -/
def insertEntry (ord : NegKeyOrder) (e : Entry) : List Entry → List Entry
  | [] => [e]
  | x :: xs => if keyLt ord x e then x :: insertEntry ord e xs else e :: x :: xs

/-- The entries sorted ascending by key (R116). -/
def sortEntries (ord : NegKeyOrder) : List Entry → List Entry
  | [] => []
  | e :: es => insertEntry ord e (sortEntries ord es)

/-- Key, value, key, value … of the entries in the given order (30_encoding.md R77). -/
def emitEntries (es : List Entry) : Octets := es.flatMap fun e => e.keyOctets ++ e.valueOctets

/-! ## One rule per value kind (R112-R117) -/

/-- R112: an integer. -/
def encInt (z : Int) : Octets := if 0 ≤ z then head 0 z.toNat else head 1 (-1 - z).toNat

/-- R117: a boolean. -/
def encBool (t : Bool) : Octets := [if t then 0xF5 else 0xF4]

mutual

/-- `enc(v)` (R110); an `Other` cannot reach it, since the check refused it (R118). -/
def enc (ord : NegKeyOrder) : LogicalValue → Octets
  | .int z => encInt z
  | .bytes b => head 2 b.length ++ b
  | .text b => head 3 b.length ++ b
  | .array vs => head 4 vs.length ++ encValues ord vs
  | .map ps => head 5 ps.length ++ emitEntries (sortEntries ord (encPairs ord ps))
  | .bool t => encBool t
  | .other _ => []

/-- The concatenated encodings of the elements (R115). -/
def encValues (ord : NegKeyOrder) : LogicalValues → Octets
  | .nil => []
  | .cons v vs => enc ord v ++ encValues ord vs

/-- The entries of a map with their encodings, in input order (R116). -/
def encPairs (ord : NegKeyOrder) : LogicalPairs → List Entry
  | .nil => []
  | .cons k v ps => ⟨k, enc ord k, enc ord v⟩ :: encPairs ord ps

end

/-! ## The operation (R110) -/

/-- The result of ENCODE: the first error of the check, else the octets. -/
def encodeResult (cfg : CodecConfig) (v : LogicalValue) : Result :=
  match checkValue cfg v 1 with
  | some e => .err e
  | none => .ok (.encoded (enc cfg.negKeyOrder v))

/-- ENCODE: no state but the list of results changes (R110, 60_exceptions.md R271). -/
def execEncode (v : LogicalValue) (s : State) : StepOutcome := .next (s.answer (encodeResult s.codec v))

end Sys2Proof.Machine
end

