-- ==== Sys2Proof/Machine/CborDecode.lean ====
section
/-! DEFINITION. DECODE and DECODE_ALL: the item reader, one rule per item kind, UTF-8 well-formedness, and the error
offsets (spec/41_cbor_decode.md R150-R168). Errors are offsets: every one is `InvalidCbor(offset)`. -/

namespace Sys2Proof.Machine

/-- What a reader of the input returns: a value, or the offset of `InvalidCbor` (R167). -/
abbrev Read := Except Nat

/-! ## UTF-8 (R158) -/

/-- A range of octets, ends included. -/
abbrev OctetRange := Nat × Nat

/-- Is an octet in a range. -/
def inRange (r : OctetRange) (o : Byte) : Bool := r.1 ≤ o.toNat && o.toNat ≤ r.2

/-- A continuation octet. -/
def utf8Tail : OctetRange := (0x80, 0xBF)

/-- The rows of the table of R158: the ranges of the first, second, third and fourth octet of a sequence. -/
def utf8Rows : List (List OctetRange) :=
  [[(0x00, 0x7F)],
   [(0xC2, 0xDF), utf8Tail],
   [(0xE0, 0xE0), (0xA0, 0xBF), utf8Tail],
   [(0xE1, 0xEC), utf8Tail, utf8Tail],
   [(0xED, 0xED), (0x80, 0x9F), utf8Tail],
   [(0xEE, 0xEF), utf8Tail, utf8Tail],
   [(0xF0, 0xF0), (0x90, 0xBF), utf8Tail, utf8Tail],
   [(0xF1, 0xF3), utf8Tail, utf8Tail, utf8Tail],
   [(0xF4, 0xF4), (0x80, 0x8F), utf8Tail, utf8Tail]]

/-- The octets a sequence that starts with o still needs; none where no row of the table has o first. -/
def utf8After (o : Byte) : Option (List OctetRange) :=
  (utf8Rows.find? fun row => (row.head?.any fun r => inRange r o)).map List.tail

/-- The octets finish a sequence whose remaining ranges are `need`, and well-formed sequences follow. -/
def utf8From : List OctetRange → Octets → Bool
  | need, [] => need.isEmpty
  | [], o :: s => match utf8After o with | none => false | some need => utf8From need s
  | r :: need, o :: s => inRange r o && utf8From need s

/-- `utf8_well_formed(s)` (R158). -/
def utf8WellFormed (s : Octets) : Bool := utf8From [] s

/-- The text check of the policy; VALIDATE is its one value (R157, 00_scope.md R7). -/
def textAccepted (p : Utf8Policy) (s : Octets) : Bool := match p with | .validate => utf8WellFormed s

/-! ## Heads (R151-R153) -/

/-- `argument(b, p, ai)`: the argument and the offset just past the head (R151; 30_encoding.md R72). -/
def argument (b : Octets) (p ai : Nat) : Read (Nat × Nat) :=
  if ai ≤ 23 then .ok (ai, p + 1)
  else
    let k := 2 ^ (ai - 24)
    if b.length < p + 1 + k then .error b.length
    else .ok (uintBe (slice b (p + 1) (p + 1 + k)), p + 1 + k)

/-- `check_initial(ib, p)` refuses the octet (R153). -/
def initialInvalid (ib : Byte) : Bool :=
  let mt := (majorType ib).toNat
  mt == 6 || (mt == 7 && ib != 0xF4 && ib != 0xF5) || (mt ≤ 5 && 28 ≤ (additionalInfo ib).toNat)

/-! ## One rule per item kind (R154-R161) -/

/-- R154: unsigned integer. -/
def readUint (arg q : Nat) : Read (LogicalValue × Nat) := .ok (.int arg, q)

/-- R155: negative integer. -/
def readNint (arg q : Nat) : Read (LogicalValue × Nat) := .ok (.int (-1 - arg), q)

/-- R156: byte string. -/
def readBytes (b : Octets) (arg q : Nat) : Read (LogicalValue × Nat) :=
  if b.length < q + arg then .error b.length else .ok (.bytes (slice b q (q + arg)), q + arg)

/-- R157: text string; p is the offset of its initial octet. -/
def readText (policy : Utf8Policy) (b : Octets) (p arg q : Nat) : Read (LogicalValue × Nat) :=
  if b.length < q + arg then .error b.length
  else if textAccepted policy (slice b q (q + arg)) then .ok (.text (slice b q (q + arg)), q + arg)
  else .error p

/-- The `repeat arg times` of R159, each element read by rd. -/
def readElements (rd : Nat → Read (LogicalValue × Nat)) : Nat → Nat → Read (LogicalValues × Nat)
  | 0, r => .ok (.nil, r)
  | n + 1, r =>
    match rd r with
    | .error e => .error e
    | .ok (u, r1) =>
      match readElements rd n r1 with
      | .error e => .error e
      | .ok (us, r2) => .ok (.cons u us, r2)

/-- The `repeat arg times` of R160: a key `≈` to one of the keys seen is an error at that key's offset, found before
its value is read. -/
def readPairs (rd : Nat → Read (LogicalValue × Nat)) :
    Nat → List LogicalValue → Nat → Read (LogicalPairs × Nat)
  | 0, _, r => .ok (.nil, r)
  | n + 1, seen, kp =>
    match rd kp with
    | .error e => .error e
    | .ok (k, r1) =>
      if seen.any (fun k' => k'.equiv k) then .error kp
      else
        match rd r1 with
        | .error e => .error e
        | .ok (u, r2) =>
          match readPairs rd n (seen ++ [k]) r2 with
          | .error e => .error e
          | .ok (ps, r3) => .ok (.cons k u ps, r3)

/-- R159: array. -/
def readArray (rd : Nat → Read (LogicalValue × Nat)) (arg q : Nat) : Read (LogicalValue × Nat) :=
  match readElements rd arg q with
  | .error e => .error e
  | .ok (us, r) => .ok (.array us, r)

/-- R160: map. -/
def readMap (rd : Nat → Read (LogicalValue × Nat)) (arg q : Nat) : Read (LogicalValue × Nat) :=
  match readPairs rd arg [] q with
  | .error e => .error e
  | .ok (ps, r) => .ok (.map ps, r)

/-- R161: boolean. -/
def readBool (ib : Byte) (p : Nat) : Read (LogicalValue × Nat) := .ok (.bool (ib == 0xF5), p + 1)

/-- The content after the head, by the major type 0..5 (R151). -/
def readContent (cfg : CodecConfig) (rd : Nat → Read (LogicalValue × Nat)) (b : Octets) (p : Nat) (mt : Nat)
    (arg q : Nat) : Read (LogicalValue × Nat) :=
  match mt with
  | 0 => readUint arg q
  | 1 => readNint arg q
  | 2 => readBytes b arg q
  | 3 => readText cfg.utf8Policy b p arg q
  | 4 => readArray rd arg q
  | _ => readMap rd arg q

/-- The item whose initial octet ib stands at offset p, its nested items read by rd (R151, R153). -/
def readItem (cfg : CodecConfig) (rd : Nat → Read (LogicalValue × Nat)) (b : Octets) (p : Nat) (ib : Byte) :
    Read (LogicalValue × Nat) :=
  if initialInvalid ib then .error p
  else if (majorType ib).toNat = 7 then readBool ib p
  else
    match argument b p (additionalInfo ib).toNat with
    | .error e => .error e
    | .ok (arg, q) => readContent cfg rd b p (majorType ib).toNat arg q

/-- `item(b, p, d)` (R151). The first argument bounds the nesting: each level consumes an octet, so `len(b) + 1`
levels are never used up (log 14). -/
def item (cfg : CodecConfig) (b : Octets) : Nat → Nat → Nat → Read (LogicalValue × Nat)
  | 0, p, _ => .error p
  | fuel + 1, p, d =>
    if tooDeep cfg d then .error p
    else
      match b[p]? with
      | none => .error p
      | some ib => readItem cfg (fun r => item cfg b fuel r (d + 1)) b p ib

/-- The first item of the input: `item(b, 0, 1)` (R150). -/
def firstItem (cfg : CodecConfig) (b : Octets) : Read (LogicalValue × Nat) := item cfg b (b.length + 1) 0 1

/-! ## The operations -/

/-- The result of DECODE (R150). -/
def decodeResult (cfg : CodecConfig) (b : Octets) : Result :=
  match firstItem cfg b with
  | .error p => .err (.invalidCbor p)
  | .ok (v, p) => .ok (.decoded v p)

/-- The result of DECODE_ALL (R166). -/
def decodeAllResult (cfg : CodecConfig) (b : Octets) : Result :=
  match firstItem cfg b with
  | .error p => .err (.invalidCbor p)
  | .ok (v, p) => if p ≠ b.length then .err (.invalidCbor p) else .ok (.decodedAll v)

/-- DECODE of b: no state but the list of results changes (R150, 60_exceptions.md R271). -/
def decodeOp (b : Octets) (s : State) : StepOutcome := .next (s.answer (decodeResult s.codec b))

/-- DECODE. -/
def execDecode (b : Octets) (s : State) : StepOutcome := decodeOp b s

/-- DECODE_ALL. -/
def execDecodeAll (b : Octets) (s : State) : StepOutcome := .next (s.answer (decodeAllResult s.codec b))

end Sys2Proof.Machine
end

