-- ==== Sys2Proof/Machine/CborRows.lean ====
section
/-! DEFINITION. The rows of the CBOR initial octet: each is a DECODE of the input whose first octet is the row's and
whose other octets are `tail` (spec/30_encoding.md R97, 41_cbor_decode.md R150-R161; log 1). What the item is worth is
the item reader's, one rule per item kind; the rows of R153 end in `InvalidCbor` at that octet. -/

namespace Sys2Proof.Machine

/-- UINT_IMM_0_15: unsigned integer, argument ai = 0..15 (R154). -/
def execUintImm0to15 (ai : BitVec 4) (tail : Octets) (s : State) : StepOutcome :=
  decodeOp ((BitVec.ofNat 4 0 ++ ai) :: tail) s

/-- UINT_IMM_16_23: unsigned integer, argument 16 + lo (R154). -/
def execUintImm16to23 (lo : BitVec 3) (tail : Octets) (s : State) : StepOutcome :=
  decodeOp ((BitVec.ofNat 5 2 ++ lo) :: tail) s

/-- UINT_ARG8: unsigned integer, 1 argument octet (R154). -/
def execUintArg8 (tail : Octets) (s : State) : StepOutcome :=
  decodeOp (0x18 :: tail) s

/-- UINT_ARG16: unsigned integer, 2 argument octets (R154). -/
def execUintArg16 (tail : Octets) (s : State) : StepOutcome :=
  decodeOp (0x19 :: tail) s

/-- UINT_ARG32: unsigned integer, 4 argument octets (R154). -/
def execUintArg32 (tail : Octets) (s : State) : StepOutcome :=
  decodeOp (0x1A :: tail) s

/-- UINT_ARG64: unsigned integer, 8 argument octets (R154). -/
def execUintArg64 (tail : Octets) (s : State) : StepOutcome :=
  decodeOp (0x1B :: tail) s

/-- UINT_RSVD_AI28_31: unsigned integer head with ai = 28..31, invalid (R153). -/
def execUintRsvdAi28to31 (lo : BitVec 2) (tail : Octets) (s : State) : StepOutcome :=
  decodeOp ((BitVec.ofNat 6 7 ++ lo) :: tail) s

/-- NINT_IMM_0_15: negative integer, argument ai = 0..15 (R155). -/
def execNintImm0to15 (ai : BitVec 4) (tail : Octets) (s : State) : StepOutcome :=
  decodeOp ((BitVec.ofNat 4 2 ++ ai) :: tail) s

/-- NINT_IMM_16_23: negative integer, argument 16 + lo (R155). -/
def execNintImm16to23 (lo : BitVec 3) (tail : Octets) (s : State) : StepOutcome :=
  decodeOp ((BitVec.ofNat 5 6 ++ lo) :: tail) s

/-- NINT_ARG8: negative integer, 1 argument octet (R155). -/
def execNintArg8 (tail : Octets) (s : State) : StepOutcome :=
  decodeOp (0x38 :: tail) s

/-- NINT_ARG16: negative integer, 2 argument octets (R155). -/
def execNintArg16 (tail : Octets) (s : State) : StepOutcome :=
  decodeOp (0x39 :: tail) s

/-- NINT_ARG32: negative integer, 4 argument octets (R155). -/
def execNintArg32 (tail : Octets) (s : State) : StepOutcome :=
  decodeOp (0x3A :: tail) s

/-- NINT_ARG64: negative integer, 8 argument octets (R155). -/
def execNintArg64 (tail : Octets) (s : State) : StepOutcome :=
  decodeOp (0x3B :: tail) s

/-- NINT_RSVD_AI28_31: negative integer head with ai = 28..31, invalid (R153). -/
def execNintRsvdAi28to31 (lo : BitVec 2) (tail : Octets) (s : State) : StepOutcome :=
  decodeOp ((BitVec.ofNat 6 15 ++ lo) :: tail) s

/-- BSTR_IMM_0_15: byte string, argument ai = 0..15 (R156). -/
def execBstrImm0to15 (ai : BitVec 4) (tail : Octets) (s : State) : StepOutcome :=
  decodeOp ((BitVec.ofNat 4 4 ++ ai) :: tail) s

/-- BSTR_IMM_16_23: byte string, argument 16 + lo (R156). -/
def execBstrImm16to23 (lo : BitVec 3) (tail : Octets) (s : State) : StepOutcome :=
  decodeOp ((BitVec.ofNat 5 10 ++ lo) :: tail) s

/-- BSTR_ARG8: byte string, 1 argument octet (R156). -/
def execBstrArg8 (tail : Octets) (s : State) : StepOutcome :=
  decodeOp (0x58 :: tail) s

/-- BSTR_ARG16: byte string, 2 argument octets (R156). -/
def execBstrArg16 (tail : Octets) (s : State) : StepOutcome :=
  decodeOp (0x59 :: tail) s

/-- BSTR_ARG32: byte string, 4 argument octets (R156). -/
def execBstrArg32 (tail : Octets) (s : State) : StepOutcome :=
  decodeOp (0x5A :: tail) s

/-- BSTR_ARG64: byte string, 8 argument octets (R156). -/
def execBstrArg64 (tail : Octets) (s : State) : StepOutcome :=
  decodeOp (0x5B :: tail) s

/-- BSTR_RSVD_AI28_31: byte string head with ai = 28..31, invalid (R153). -/
def execBstrRsvdAi28to31 (lo : BitVec 2) (tail : Octets) (s : State) : StepOutcome :=
  decodeOp ((BitVec.ofNat 6 23 ++ lo) :: tail) s

/-- TSTR_IMM_0_15: text string, argument ai = 0..15 (R157). -/
def execTstrImm0to15 (ai : BitVec 4) (tail : Octets) (s : State) : StepOutcome :=
  decodeOp ((BitVec.ofNat 4 6 ++ ai) :: tail) s

/-- TSTR_IMM_16_23: text string, argument 16 + lo (R157). -/
def execTstrImm16to23 (lo : BitVec 3) (tail : Octets) (s : State) : StepOutcome :=
  decodeOp ((BitVec.ofNat 5 14 ++ lo) :: tail) s

/-- TSTR_ARG8: text string, 1 argument octet (R157). -/
def execTstrArg8 (tail : Octets) (s : State) : StepOutcome :=
  decodeOp (0x78 :: tail) s

/-- TSTR_ARG16: text string, 2 argument octets (R157). -/
def execTstrArg16 (tail : Octets) (s : State) : StepOutcome :=
  decodeOp (0x79 :: tail) s

/-- TSTR_ARG32: text string, 4 argument octets (R157). -/
def execTstrArg32 (tail : Octets) (s : State) : StepOutcome :=
  decodeOp (0x7A :: tail) s

/-- TSTR_ARG64: text string, 8 argument octets (R157). -/
def execTstrArg64 (tail : Octets) (s : State) : StepOutcome :=
  decodeOp (0x7B :: tail) s

/-- TSTR_RSVD_AI28_31: text string head with ai = 28..31, invalid (R153). -/
def execTstrRsvdAi28to31 (lo : BitVec 2) (tail : Octets) (s : State) : StepOutcome :=
  decodeOp ((BitVec.ofNat 6 31 ++ lo) :: tail) s

/-- ARRAY_IMM_0_15: array, argument ai = 0..15 (R159). -/
def execArrayImm0to15 (ai : BitVec 4) (tail : Octets) (s : State) : StepOutcome :=
  decodeOp ((BitVec.ofNat 4 8 ++ ai) :: tail) s

/-- ARRAY_IMM_16_23: array, argument 16 + lo (R159). -/
def execArrayImm16to23 (lo : BitVec 3) (tail : Octets) (s : State) : StepOutcome :=
  decodeOp ((BitVec.ofNat 5 18 ++ lo) :: tail) s

/-- ARRAY_ARG8: array, 1 argument octet (R159). -/
def execArrayArg8 (tail : Octets) (s : State) : StepOutcome :=
  decodeOp (0x98 :: tail) s

/-- ARRAY_ARG16: array, 2 argument octets (R159). -/
def execArrayArg16 (tail : Octets) (s : State) : StepOutcome :=
  decodeOp (0x99 :: tail) s

/-- ARRAY_ARG32: array, 4 argument octets (R159). -/
def execArrayArg32 (tail : Octets) (s : State) : StepOutcome :=
  decodeOp (0x9A :: tail) s

/-- ARRAY_ARG64: array, 8 argument octets (R159). -/
def execArrayArg64 (tail : Octets) (s : State) : StepOutcome :=
  decodeOp (0x9B :: tail) s

/-- ARRAY_RSVD_AI28_31: array head with ai = 28..31, invalid (R153). -/
def execArrayRsvdAi28to31 (lo : BitVec 2) (tail : Octets) (s : State) : StepOutcome :=
  decodeOp ((BitVec.ofNat 6 39 ++ lo) :: tail) s

/-- MAP_IMM_0_15: map, argument ai = 0..15 (R160). -/
def execMapImm0to15 (ai : BitVec 4) (tail : Octets) (s : State) : StepOutcome :=
  decodeOp ((BitVec.ofNat 4 10 ++ ai) :: tail) s

/-- MAP_IMM_16_23: map, argument 16 + lo (R160). -/
def execMapImm16to23 (lo : BitVec 3) (tail : Octets) (s : State) : StepOutcome :=
  decodeOp ((BitVec.ofNat 5 22 ++ lo) :: tail) s

/-- MAP_ARG8: map, 1 argument octet (R160). -/
def execMapArg8 (tail : Octets) (s : State) : StepOutcome :=
  decodeOp (0xB8 :: tail) s

/-- MAP_ARG16: map, 2 argument octets (R160). -/
def execMapArg16 (tail : Octets) (s : State) : StepOutcome :=
  decodeOp (0xB9 :: tail) s

/-- MAP_ARG32: map, 4 argument octets (R160). -/
def execMapArg32 (tail : Octets) (s : State) : StepOutcome :=
  decodeOp (0xBA :: tail) s

/-- MAP_ARG64: map, 8 argument octets (R160). -/
def execMapArg64 (tail : Octets) (s : State) : StepOutcome :=
  decodeOp (0xBB :: tail) s

/-- MAP_RSVD_AI28_31: map head with ai = 28..31, invalid (R153). -/
def execMapRsvdAi28to31 (lo : BitVec 2) (tail : Octets) (s : State) : StepOutcome :=
  decodeOp ((BitVec.ofNat 6 47 ++ lo) :: tail) s

/-- TAG_UNSUPPORTED: tagged item, unsupported (R153). -/
def execTagUnsupported (ai : BitVec 5) (tail : Octets) (s : State) : StepOutcome :=
  decodeOp ((BitVec.ofNat 3 6 ++ ai) :: tail) s

/-- SIMPLE_E0_EF_INVALID: simple values 0..15, invalid (R153). -/
def execSimpleE0toEFInvalid (lo : BitVec 4) (tail : Octets) (s : State) : StepOutcome :=
  decodeOp ((BitVec.ofNat 4 14 ++ lo) :: tail) s

/-- SIMPLE_F0_F3_INVALID: simple values 16..19, invalid (R153). -/
def execSimpleF0toF3Invalid (lo : BitVec 2) (tail : Octets) (s : State) : StepOutcome :=
  decodeOp ((BitVec.ofNat 6 60 ++ lo) :: tail) s

/-- FALSE: the boolean false (R161). -/
def execCborFalse (tail : Octets) (s : State) : StepOutcome :=
  decodeOp (0xF4 :: tail) s

/-- TRUE: the boolean true (R161). -/
def execCborTrue (tail : Octets) (s : State) : StepOutcome :=
  decodeOp (0xF5 :: tail) s

/-- SIMPLE_F6_F7_INVALID: F6 and F7, invalid (R153). -/
def execSimpleF6toF7Invalid (lo : BitVec 1) (tail : Octets) (s : State) : StepOutcome :=
  decodeOp ((BitVec.ofNat 7 123 ++ lo) :: tail) s

/-- SIMPLE_F8_FB_INVALID: F8..FB, invalid (R153). -/
def execSimpleF8toFBInvalid (lo : BitVec 2) (tail : Octets) (s : State) : StepOutcome :=
  decodeOp ((BitVec.ofNat 6 62 ++ lo) :: tail) s

/-- SIMPLE_FC_FF_INVALID: FC..FF, invalid (R153). -/
def execSimpleFCtoFFInvalid (lo : BitVec 2) (tail : Octets) (s : State) : StepOutcome :=
  decodeOp ((BitVec.ofNat 6 63 ++ lo) :: tail) s

end Sys2Proof.Machine
end

