-- ==== Sys2Proof/Machine/HostOps.lean ====
section
/-! DEFINITION. The other host operations: RESET (spec/70_reset_and_hazards.md R300), EMIT (43_hid_emit.md R240-R247),
the channel predicates (R248, R249) and the refused codes (30_encoding.md R99). -/

namespace Sys2Proof.Machine

/-- RESET: the addressed instance ends and a fresh one of the same configuration starts (R300). -/
def execReset (s : State) : StepOutcome := .next (s.freshFramer.answer (.ok .nothing))

/-! ## EMIT -/

/-- The number of continuation packets: `count(N) - 1` (R241). -/
def contCount (n : Nat) : Nat := (n - initDataMax + (contDataMax - 1)) / contDataMax

/-- An octet string filled with zeros to n octets (R242, R243). -/
def zeroFill (n : Nat) (o : Octets) : Octets := o ++ zeros (n - o.length)

/-- The initialization packet (R242). -/
def emitInit (cmd : BitVec 7) (cid : Cid) (payload : Octets) : Octets :=
  cidOctets cid ++ initOctet cmd :: (beOctets 2 payload.length ++ zeroFill initDataMax (payload.take initDataMax))

/-- The payload octets of continuation packet j: `payload[57 + 59j .. min(N, 57 + 59(j+1))]` (R241). -/
def contChunk (payload : Octets) (j : Nat) : Octets :=
  slice payload (initDataMax + contDataMax * j) (initDataMax + contDataMax * (j + 1))

/-- Continuation packet j, whose sequence number is j (R241, R243). -/
def emitCont (cid : Cid) (payload : Octets) (j : Nat) : Octets :=
  cidOctets cid ++ BitVec.ofNat 8 j :: zeroFill contDataMax (contChunk payload j)

/-- The packets in the order of emission: the initialization packet, then the continuations in ascending seq (R244). -/
def emitPackets (cmd : BitVec 7) (cid : Cid) (payload : Octets) : List Octets :=
  emitInit cmd cid payload :: (List.range (contCount payload.length)).map (emitCont cid payload)

/-- The result of EMIT (R240, R245). -/
def emitResult (cmd : BitVec 7) (cid : Cid) (payload : Octets) : Result :=
  if msgMax < payload.length then .err .emitTooLong else .ok (.packets (emitPackets cmd cid payload))

/-- EMIT: it reads and writes no framer state (R247). -/
def execEmit (cmd : BitVec 7) (cid : Cid) (payload : Octets) (s : State) : StepOutcome :=
  .next (s.answer (emitResult cmd cid payload))

/-! ## Channel predicates -/

/-- IS_BROADCAST (R248). -/
def execIsBroadcast (cid : Cid) (s : State) : StepOutcome :=
  .next (s.answer (.ok (.flag (cid == broadcastCid))))

/-- IS_VALID: membership in the allocated set of the addressed instance (R249). -/
def execIsValid (cid : Cid) (s : State) : StepOutcome :=
  .next (s.answer (.ok (.flag (hasChannel s.framer.channels cid))))

/-! ## Refused codes -/

/-- An operation code 8..F names no operation: no step (30_encoding.md R99). -/
def execHostOpRefused (code : BitVec 3) (_s : State) : StepOutcome := .refused (.operationUnassigned code)

end Sys2Proof.Machine
end

