-- ==== Sys2Proof/Machine/Reassembly.lean ====
section
/-! DEFINITION. HANDLE: the reassembly state machine, the INIT response and the delivery of messages
(spec/42_hid_reassembly.md R190-R228). -/

namespace Sys2Proof.Machine

/-! ## Step 1: clock sample and timeout (R191) -/

/-- The record is `Assembling` and `now - begin_ts` exceeds 250 ms, a signed difference (R191, 60_exceptions.md R286). -/
def timedOut (s : State) : Bool :=
  match s.framer.st with
  | .idle => false
  | .assembling a => tTimeout < s.clock - a.beginTs

/-- The clock is sampled, and a timed-out record is silently reset to `Idle`. -/
def applyTimeout (s : State) : State :=
  if timedOut s then s.sampleClock.setSt .idle else s.sampleClock

/-! ## Step 4: completion (R202, R204, R205, R220-R226) -/

/-- Channel re-validation (R204): INIT needs a broadcast or allocated cid, any other command an allocated cid that is
not broadcast. -/
def completionAllowed (channels : List Cid) (cmd : BitVec 7) (cid : Cid) : Bool :=
  if cmd = cmdInit then cid = broadcastCid || hasChannel channels cid
  else cid ≠ broadcastCid && hasChannel channels cid

/-- The channel table is full: only where MAX_CHANNELS is finite (R226). -/
def channelsFull (f : Framer) : Bool :=
  match f.config.maxChannels with
  | none => false
  | some k => k ≤ f.channels.length

/-- The 17 octets of the INIT response (R222). -/
def initResponse (c : FramerConfig) (nonce : Octets) (rcid : Cid) : Octets :=
  nonce ++ cidOctets rcid ++ [ctaphidVersion, c.vmaj, c.vmin, c.build, caps]

/-- The INIT response naming the channel rcid is delivered to the request's cid (R220). -/
def deliverInit (a : Assembly) (rcid : Cid) (s : State) : Handled :=
  (s.setSt .idle, .complete ⟨a.cid, cmdInit, initResponse s.framer.config (slice a.received 0 8) rcid⟩)

/-- A draw whose answer joins the channel set (R221). -/
def allocate (s : State) : State := s.countDraw.addChannel s.rng

/-- `init_complete()` (R220): the length (R224), then, on the broadcast channel, the table and the draw (R226, R221). -/
def initComplete (a : Assembly) (s : State) : Handled :=
  if a.bcnt.toNat < 8 then deliverError errInvalidLen s
  else if a.cid = broadcastCid then
    if channelsFull s.framer then deliverError errOther s else deliverInit a s.rng (allocate s)
  else deliverInit a a.cid s

/-- `deliver()` (R205). -/
def deliverMessage (a : Assembly) (s : State) : Handled :=
  (s.setSt .idle, .complete ⟨a.cid, a.cmd, a.received.take a.bcnt.toNat⟩)

/-- `complete_or_progress()` (R202) of the record a, which the state holds. -/
def completeOrProgress (a : Assembly) (s : State) : Handled :=
  if a.received.length < a.bcnt.toNat then (s, .inProgress)
  else if completionAllowed s.framer.channels a.cmd a.cid then
    if a.cmd = cmdInit then initComplete a s else deliverMessage a s
  else deliverError errInvalidChannel s

/-- The record becomes a, and the completion test follows in the same HANDLE (R196, R201, R202). -/
def assemble (a : Assembly) (s : State) : Handled := completeOrProgress a (s.setSt (.assembling a))

/-! ## Steps 2 and 3: the packet -/

/-- The record an initialization packet starts (R194, R196). -/
def startAssembly (pkt : Octets) (now : Int) : Assembly where
  cid := pktCid pkt
  cmd := pktCmd pkt
  bcnt := pktBcnt pkt
  received := (initPayload pkt).take (pktBcnt pkt).toNat
  seqLast := none
  beginTs := now

/-- `idle_packet(pkt, now)`: the tests of R192, R193 and R195 in order, then R196. -/
def idlePacket (pkt : Octets) (s : State) : Handled :=
  if pkt.length < initHdr then deliverError errOther s
  else if !isInitPacket pkt then deliverError errInvalidCmd s
  else if pktCid pkt ≠ broadcastCid && !hasChannel s.framer.channels (pktCid pkt) then
    deliverError errInvalidChannel s
  else assemble (startAssembly pkt s.clock) s

/-- The sequence number the next continuation packet must carry, an integer that does not wrap (R200). -/
def expectedSeq (a : Assembly) : Nat :=
  match a.seqLast with
  | none => 0
  | some k => k.toNat + 1

/-- The record with a continuation packet appended (R201). -/
def appendPacket (pkt : Octets) (a : Assembly) : Assembly :=
  { a with received := (a.received ++ contPayload pkt).take a.bcnt.toNat, seqLast := some (pktSeq pkt) }

/-- `cont_packet(pkt)`: the tests of R197-R200 in order, then R201. -/
def contPacket (pkt : Octets) (a : Assembly) (s : State) : Handled :=
  if pkt.length < contHdr then deliverError errOther s
  else if isInitPacket pkt then deliverError errInvalidCmd s
  else if pktCid pkt ≠ a.cid then deliverError errChannelBusy s
  else if (pktSeq pkt).toNat ≠ expectedSeq a then deliverError errInvalidSeq s
  else assemble (appendPacket pkt a) s

/-- A packet at a framer whose timeout has been applied (R190). -/
def handlePacket (pkt : Octets) (s : State) : Handled :=
  match s.framer.st with
  | .idle => idlePacket pkt s
  | .assembling a => contPacket pkt a s

/-- HANDLE (R190); a packet of more than 64 octets is outside the host's contract (20_memory.md R57, log 9). -/
def handleOp (pkt : Octets) (s : State) : StepOutcome :=
  if pktSize < pkt.length then .refused (.packetTooLong pkt.length)
  else finishHandle (handlePacket pkt (applyTimeout s))

/-- HANDLE. -/
def execHandle (pkt : Octets) (s : State) : StepOutcome := handleOp pkt s

end Sys2Proof.Machine
end

