-- ==== Sys2Proof/Machine/PacketRows.lean ====
section
/-! DEFINITION. The rows of octet 4 of a CTAPHID packet: each is a HANDLE of the packet of channel `cid` with that
octet 4 and `tail` as its octets 5 on (spec/30_encoding.md R80-R82, R90, R98, 42_hid_reassembly.md R227; log 1). -/

namespace Sys2Proof.Machine

/-- The packet of channel cid with octet 4 k and octets 5 on tail. -/
def packetOf (cid : Cid) (k : Byte) (tail : Octets) : Octets := cidOctets cid ++ k :: tail

/-- CTAPHID_PING: initialization packet of command PING (R227). -/
def execCtaphidPing (cid : Cid) (tail : Octets) (s : State) : StepOutcome :=
  handleOp (packetOf cid (initOctet cmdPing) tail) s

/-- CTAPHID_MSG: initialization packet of command MSG (R227). -/
def execCtaphidMsg (cid : Cid) (tail : Octets) (s : State) : StepOutcome :=
  handleOp (packetOf cid (initOctet cmdMsg) tail) s

/-- CTAPHID_LOCK: initialization packet of command LOCK (R228). -/
def execCtaphidLock (cid : Cid) (tail : Octets) (s : State) : StepOutcome :=
  handleOp (packetOf cid (initOctet cmdLock) tail) s

/-- CTAPHID_INIT: initialization packet of command INIT (R220). -/
def execCtaphidInit (cid : Cid) (tail : Octets) (s : State) : StepOutcome :=
  handleOp (packetOf cid (initOctet cmdInit) tail) s

/-- CTAPHID_WINK: initialization packet of command WINK (R227). -/
def execCtaphidWink (cid : Cid) (tail : Octets) (s : State) : StepOutcome :=
  handleOp (packetOf cid (initOctet cmdWink) tail) s

/-- CTAPHID_CBOR: initialization packet of command CBOR (R227). -/
def execCtaphidCbor (cid : Cid) (tail : Octets) (s : State) : StepOutcome :=
  handleOp (packetOf cid (initOctet cmdCbor) tail) s

/-- CTAPHID_CANCEL: initialization packet of command CANCEL (R227). -/
def execCtaphidCancel (cid : Cid) (tail : Octets) (s : State) : StepOutcome :=
  handleOp (packetOf cid (initOctet cmdCancel) tail) s

/-- CTAPHID_KEEPALIVE: initialization packet of command KEEPALIVE (R227). -/
def execCtaphidKeepalive (cid : Cid) (tail : Octets) (s : State) : StepOutcome :=
  handleOp (packetOf cid (initOctet cmdKeepalive) tail) s

/-- CTAPHID_ERROR: initialization packet of command ERROR (R227). -/
def execCtaphidError (cid : Cid) (tail : Octets) (s : State) : StepOutcome :=
  handleOp (packetOf cid (initOctet cmdError) tail) s

/-- CTAPHID_INIT_PACKET_OTHER_CMD: initialization packet of a command the table does not list (R98) (R227). -/
def execCtaphidInitPacketOtherCmd (cid : Cid) (cmd : BitVec 7) (tail : Octets) (s : State) : StepOutcome :=
  handleOp (packetOf cid (initOctet cmd) tail) s

/-- CTAPHID_CONT_PACKET: continuation packet with sequence number seq (R200). -/
def execCtaphidContPacket (cid : Cid) (seq : BitVec 7) (tail : Octets) (s : State) : StepOutcome :=
  handleOp (packetOf cid (contOctet seq) tail) s

end Sys2Proof.Machine
end

