-- ==== Sys2Proof/Machine/Dispatch.lean ====
section
/-! DEFINITION. The meaning of each instruction: one arm per row of the opcode table, in the table's order. -/

namespace Sys2Proof.Machine

def exec (i : Instr) (s : State) : Host.Outcome State Fault Refusal :=
  match i with
  | .uintImm0to15 ai tail => Sys2Proof.Machine.execUintImm0to15 ai tail s
  | .uintImm16to23 lo tail => Sys2Proof.Machine.execUintImm16to23 lo tail s
  | .uintArg8 tail => Sys2Proof.Machine.execUintArg8 tail s
  | .uintArg16 tail => Sys2Proof.Machine.execUintArg16 tail s
  | .uintArg32 tail => Sys2Proof.Machine.execUintArg32 tail s
  | .uintArg64 tail => Sys2Proof.Machine.execUintArg64 tail s
  | .uintRsvdAi28to31 lo tail => Sys2Proof.Machine.execUintRsvdAi28to31 lo tail s
  | .nintImm0to15 ai tail => Sys2Proof.Machine.execNintImm0to15 ai tail s
  | .nintImm16to23 lo tail => Sys2Proof.Machine.execNintImm16to23 lo tail s
  | .nintArg8 tail => Sys2Proof.Machine.execNintArg8 tail s
  | .nintArg16 tail => Sys2Proof.Machine.execNintArg16 tail s
  | .nintArg32 tail => Sys2Proof.Machine.execNintArg32 tail s
  | .nintArg64 tail => Sys2Proof.Machine.execNintArg64 tail s
  | .nintRsvdAi28to31 lo tail => Sys2Proof.Machine.execNintRsvdAi28to31 lo tail s
  | .bstrImm0to15 ai tail => Sys2Proof.Machine.execBstrImm0to15 ai tail s
  | .bstrImm16to23 lo tail => Sys2Proof.Machine.execBstrImm16to23 lo tail s
  | .bstrArg8 tail => Sys2Proof.Machine.execBstrArg8 tail s
  | .bstrArg16 tail => Sys2Proof.Machine.execBstrArg16 tail s
  | .bstrArg32 tail => Sys2Proof.Machine.execBstrArg32 tail s
  | .bstrArg64 tail => Sys2Proof.Machine.execBstrArg64 tail s
  | .bstrRsvdAi28to31 lo tail => Sys2Proof.Machine.execBstrRsvdAi28to31 lo tail s
  | .tstrImm0to15 ai tail => Sys2Proof.Machine.execTstrImm0to15 ai tail s
  | .tstrImm16to23 lo tail => Sys2Proof.Machine.execTstrImm16to23 lo tail s
  | .tstrArg8 tail => Sys2Proof.Machine.execTstrArg8 tail s
  | .tstrArg16 tail => Sys2Proof.Machine.execTstrArg16 tail s
  | .tstrArg32 tail => Sys2Proof.Machine.execTstrArg32 tail s
  | .tstrArg64 tail => Sys2Proof.Machine.execTstrArg64 tail s
  | .tstrRsvdAi28to31 lo tail => Sys2Proof.Machine.execTstrRsvdAi28to31 lo tail s
  | .arrayImm0to15 ai tail => Sys2Proof.Machine.execArrayImm0to15 ai tail s
  | .arrayImm16to23 lo tail => Sys2Proof.Machine.execArrayImm16to23 lo tail s
  | .arrayArg8 tail => Sys2Proof.Machine.execArrayArg8 tail s
  | .arrayArg16 tail => Sys2Proof.Machine.execArrayArg16 tail s
  | .arrayArg32 tail => Sys2Proof.Machine.execArrayArg32 tail s
  | .arrayArg64 tail => Sys2Proof.Machine.execArrayArg64 tail s
  | .arrayRsvdAi28to31 lo tail => Sys2Proof.Machine.execArrayRsvdAi28to31 lo tail s
  | .mapImm0to15 ai tail => Sys2Proof.Machine.execMapImm0to15 ai tail s
  | .mapImm16to23 lo tail => Sys2Proof.Machine.execMapImm16to23 lo tail s
  | .mapArg8 tail => Sys2Proof.Machine.execMapArg8 tail s
  | .mapArg16 tail => Sys2Proof.Machine.execMapArg16 tail s
  | .mapArg32 tail => Sys2Proof.Machine.execMapArg32 tail s
  | .mapArg64 tail => Sys2Proof.Machine.execMapArg64 tail s
  | .mapRsvdAi28to31 lo tail => Sys2Proof.Machine.execMapRsvdAi28to31 lo tail s
  | .tagUnsupported ai tail => Sys2Proof.Machine.execTagUnsupported ai tail s
  | .simpleE0toEFInvalid lo tail => Sys2Proof.Machine.execSimpleE0toEFInvalid lo tail s
  | .simpleF0toF3Invalid lo tail => Sys2Proof.Machine.execSimpleF0toF3Invalid lo tail s
  | .cborFalse tail => Sys2Proof.Machine.execCborFalse tail s
  | .cborTrue tail => Sys2Proof.Machine.execCborTrue tail s
  | .simpleF6toF7Invalid lo tail => Sys2Proof.Machine.execSimpleF6toF7Invalid lo tail s
  | .simpleF8toFBInvalid lo tail => Sys2Proof.Machine.execSimpleF8toFBInvalid lo tail s
  | .simpleFCtoFFInvalid lo tail => Sys2Proof.Machine.execSimpleFCtoFFInvalid lo tail s
  | .ctaphidPing cid tail => Sys2Proof.Machine.execCtaphidPing cid tail s
  | .ctaphidMsg cid tail => Sys2Proof.Machine.execCtaphidMsg cid tail s
  | .ctaphidLock cid tail => Sys2Proof.Machine.execCtaphidLock cid tail s
  | .ctaphidInit cid tail => Sys2Proof.Machine.execCtaphidInit cid tail s
  | .ctaphidWink cid tail => Sys2Proof.Machine.execCtaphidWink cid tail s
  | .ctaphidCbor cid tail => Sys2Proof.Machine.execCtaphidCbor cid tail s
  | .ctaphidCancel cid tail => Sys2Proof.Machine.execCtaphidCancel cid tail s
  | .ctaphidKeepalive cid tail => Sys2Proof.Machine.execCtaphidKeepalive cid tail s
  | .ctaphidError cid tail => Sys2Proof.Machine.execCtaphidError cid tail s
  | .ctaphidInitPacketOtherCmd cid cmd tail => Sys2Proof.Machine.execCtaphidInitPacketOtherCmd cid cmd tail s
  | .ctaphidContPacket cid seq tail => Sys2Proof.Machine.execCtaphidContPacket cid seq tail s
  | .reset => Sys2Proof.Machine.execReset s
  | .encode v => Sys2Proof.Machine.execEncode v s
  | .decode b => Sys2Proof.Machine.execDecode b s
  | .decodeAll b => Sys2Proof.Machine.execDecodeAll b s
  | .handle pkt => Sys2Proof.Machine.execHandle pkt s
  | .emit cmd cid payload => Sys2Proof.Machine.execEmit cmd cid payload s
  | .isBroadcast cid => Sys2Proof.Machine.execIsBroadcast cid s
  | .isValid cid => Sys2Proof.Machine.execIsValid cid s
  | .hostOpRefused code => Sys2Proof.Machine.execHostOpRefused code s

end Sys2Proof.Machine
end

