-- ==== Sys2Proof/Machine/Step.lean ====
section
/-! DEFINITION. One step of a run: the host's next operation is taken, the instance it addresses selected, its ports
presented, and the decoded instruction executed (spec/70_reset_and_hazards.md R312, 00_scope.md R5). -/

namespace Sys2Proof.Machine

/-- One step. -/
def step (s : State) : Host.Outcome State Fault Refusal :=
  match s.pending with
  | [] => .fault .noOperation
  | r :: rest =>
    match selectInstance r.inst s with
    | none => .refused (.noSuchInstance r.inst)
    | some s1 =>
      match decodeWire r.wire with
      | .error e => .refused (.undecodable e)
      | .ok i => exec i (s1.present r rest)

/-- The instruction of a table word placed before all pending requests, for the addressed instance and with the values
the ports present now (log 4). -/
def State.withFetchWord (s : State) (nbits w : Nat) : State := s.issue (tableWire nbits w)

end Sys2Proof.Machine
end

