-- ==== Sys2Proof/Machine/Flags.lean ====
section
/-! DEFINITION. The block has no status flags and no condition codes (spec/10_state.md R22). The only tags are those a
result carries, named here: Ok or Err, Complete or InProgress, and the error delivery told by its command 3F
(60_exceptions.md R272). No operation reads one left by an earlier operation. -/

namespace Sys2Proof.Machine

/-- Is the result an `Err`. -/
def Result.isErr : Result → Bool
  | .ok _ => false
  | .err _ => true

/-- Is a framer result an error delivery: the host tells it by the command alone (R272). -/
def FramerResult.isErrorDelivery : FramerResult → Bool
  | .inProgress => false
  | .complete m => m.cmd == cmdError

end Sys2Proof.Machine
end

