-- ==== Sys2Proof/Safety.lean ====
section
/-! DEFINITION. What claims are stated in: the invariant of a run (spec/10_state.md R29, R30, R33), the values DECODE
may return (R25), the item format and its errors as relations (41_cbor_decode.md R151-R161, R167, R168), and small
words for the conditions of HANDLE. Nothing here is read by the machine. -/

namespace Sys2Proof.Machine

/-! ## The invariant -/

/-- The canonical form of a channel set: strictly rising, so equal sets are equal lists (log 13). -/
abbrev ChannelsWf (cs : List Cid) : Prop := cs.Pairwise fun a b => cidKey a < cidKey b

/-- What holds of a record in `Assembling` between operations: fewer octets received than declared (R29), at most 57
and 59 for each accepted continuation packet (R33), and a cid that was admitted (42_hid_reassembly.md R195). -/
structure Assembly.Wf (channels : List Cid) (a : Assembly) : Prop where
  short : a.received.length < a.bcnt.toNat
  capacity : a.received.length ≤ 57 + 59 * expectedSeq a
  admitted : a.cid = broadcastCid ∨ hasChannel channels a.cid = true

/-- A record: nothing is asked of `Idle`, which has no fields (R28). -/
def FramerState.Wf (channels : List Cid) : FramerState → Prop
  | .idle => True
  | .assembling a => a.Wf channels

/-- The set holds at most MAX_CHANNELS members where that is finite (42_hid_reassembly.md R226). -/
def withinCapacity (f : Framer) : Prop := ∀ k, f.config.maxChannels = some k → f.channels.length ≤ k

/-- A framer instance. -/
structure Framer.Wf (f : Framer) : Prop where
  channels : ChannelsWf f.channels
  record : f.st.Wf f.channels
  capacity : withinCapacity f

/-- The whole state: the addressed instance, and the parked ones in rising order of their numbers, none of which is the
addressed one's. -/
structure State.Inv (s : State) : Prop where
  framer : s.framer.Wf
  parked : ∀ x ∈ s.parked, x.1 ≠ s.inst ∧ x.2.Wf
  order : s.parked.Pairwise fun x y => x.1 < y.1

/-! ## The values of DECODE (R25) -/

mutual

/-- A `CborValue`: no `Other`, integers in range, well-formed text, unique keys, lengths below 2^64 (R25). -/
def isCbor : LogicalValue → Bool
  | .int z => decide (-(2 ^ 64) ≤ z ∧ z ≤ 2 ^ 64 - 1)
  | .bytes b => decide (b.length < 2 ^ 64)
  | .text b => decide (b.length < 2 ^ 64) && utf8WellFormed b
  | .array vs => decide (vs.length < 2 ^ 64) && areCbor vs
  | .map ps => decide (ps.length < 2 ^ 64) && pairsCbor ps && !hasDuplicateKey ps.keys
  | .bool _ => true
  | .other _ => false

/-- Every element is a `CborValue`. -/
def areCbor : LogicalValues → Bool
  | .nil => true
  | .cons v vs => isCbor v && areCbor vs

/-- Every key and value is a `CborValue`. -/
def pairsCbor : LogicalPairs → Bool
  | .nil => true
  | .cons k v ps => isCbor k && isCbor v && pairsCbor ps

end

mutual

/-- The number of nesting levels: elements, keys and values are one deeper than their container (40_cbor_encode.md R119). -/
def depthOf : LogicalValue → Nat
  | .int _ => 1
  | .bytes _ => 1
  | .text _ => 1
  | .array vs => depthOfAll vs + 1
  | .map ps => depthOfPairs ps + 1
  | .bool _ => 1
  | .other _ => 1

/-- The deepest element. -/
def depthOfAll : LogicalValues → Nat
  | .nil => 0
  | .cons v vs => max (depthOf v) (depthOfAll vs)

/-- The deepest key or value. -/
def depthOfPairs : LogicalPairs → Nat
  | .nil => 0
  | .cons k v ps => max (max (depthOf k) (depthOf v)) (depthOfPairs ps)

end

/-! ## The item format and its errors as relations (41_cbor_decode.md R151-R161, R167, R168) -/

/-- At offset p of b stands a whole head of major type mt and argument arg, and q is the offset just past it
(30_encoding.md R70-R72). -/
def HeadAt (b : Octets) (p mt arg q : Nat) : Prop :=
  ∃ ib : Byte, b[p]? = some ib ∧
    ((∃ ai, ai ≤ 23 ∧ ib.toNat = 32 * mt + ai ∧ arg = ai ∧ q = p + 1) ∨
     (∃ j, j ≤ 3 ∧ ib.toNat = 32 * mt + 24 + j ∧ q = p + 1 + 2 ^ j ∧ q ≤ b.length ∧
        arg = uintBe (slice b (p + 1) q)))

/-- Depth d is allowed (R164). -/
def DepthOk (cfg : CodecConfig) (d : Nat) : Prop := ∀ k, cfg.maxDepth = some k → d ≤ k

mutual

/-- An item of value v starts at offset p of b, at depth d, and q is the offset just past it. -/
inductive ItemAt (cfg : CodecConfig) (b : Octets) : Nat → Nat → LogicalValue → Nat → Prop where
  | uint {p d arg q : Nat} (hd : DepthOk cfg d) (hh : HeadAt b p 0 arg q) : ItemAt cfg b p d (.int arg) q
  | nint {p d arg q : Nat} (hd : DepthOk cfg d) (hh : HeadAt b p 1 arg q) : ItemAt cfg b p d (.int (-1 - arg)) q
  | bytes {p d arg q : Nat} (hd : DepthOk cfg d) (hh : HeadAt b p 2 arg q) (hl : q + arg ≤ b.length) :
      ItemAt cfg b p d (.bytes (slice b q (q + arg))) (q + arg)
  | text {p d arg q : Nat} (hd : DepthOk cfg d) (hh : HeadAt b p 3 arg q) (hl : q + arg ≤ b.length)
      (hu : utf8WellFormed (slice b q (q + arg)) = true) :
      ItemAt cfg b p d (.text (slice b q (q + arg))) (q + arg)
  | array {p d n q r : Nat} {vs : LogicalValues} (hd : DepthOk cfg d) (hh : HeadAt b p 4 n q)
      (he : ElementsAt cfg b n q (d + 1) vs r) : ItemAt cfg b p d (.array vs) r
  | map {p d n q r : Nat} {ps : LogicalPairs} (hd : DepthOk cfg d) (hh : HeadAt b p 5 n q)
      (he : PairsAt cfg b n [] q (d + 1) ps r) : ItemAt cfg b p d (.map ps) r
  | false {p d : Nat} (hd : DepthOk cfg d) (hb : b[p]? = some 0xF4) : ItemAt cfg b p d (.bool Bool.false) (p + 1)
  | true {p d : Nat} (hd : DepthOk cfg d) (hb : b[p]? = some 0xF5) : ItemAt cfg b p d (.bool Bool.true) (p + 1)

/-- n items stand one after the other from offset p to offset r (R159). -/
inductive ElementsAt (cfg : CodecConfig) (b : Octets) : Nat → Nat → Nat → LogicalValues → Nat → Prop where
  | nil {p d : Nat} : ElementsAt cfg b 0 p d .nil p
  | cons {n p d q r : Nat} {v : LogicalValue} {vs : LogicalValues} (hv : ItemAt cfg b p d v q)
      (hs : ElementsAt cfg b n q d vs r) : ElementsAt cfg b (n + 1) p d (.cons v vs) r

/-- n pairs stand from offset p to offset r, no key `≈` to an earlier one or to one of the keys seen (R160). -/
inductive PairsAt (cfg : CodecConfig) (b : Octets) :
    Nat → List LogicalValue → Nat → Nat → LogicalPairs → Nat → Prop where
  | nil {seen : List LogicalValue} {p d : Nat} : PairsAt cfg b 0 seen p d .nil p
  | cons {n p d q q' r : Nat} {seen : List LogicalValue} {k v : LogicalValue} {ps : LogicalPairs}
      (hk : ItemAt cfg b p d k q) (hn : ∀ k' ∈ seen, k'.equiv k = Bool.false) (hv : ItemAt cfg b q d v q')
      (hs : PairsAt cfg b n (seen ++ [k]) q' d ps r) : PairsAt cfg b (n + 1) seen p d (.cons k v ps) r

end

/-- Reading the item at offset p of b, at depth d, fails, and e is the offset its error reports: the tests of an item
in their order (R151-R153, R156, R157), and the first element, key or value of a container that fails (R159, R160); a
nested error keeps its own offset (R167, R168). -/
inductive FailsAt (cfg : CodecConfig) (b : Octets) : Nat → Nat → Nat → Prop where
  | tooDeep {p d : Nat} (hd : ¬DepthOk cfg d) : FailsAt cfg b p d p
  | missing {p d : Nat} (hd : DepthOk cfg d) (hp : b.length ≤ p) : FailsAt cfg b p d p
  | initial {p d : Nat} {ib : Byte} (hd : DepthOk cfg d) (hb : b[p]? = some ib)
      (hr : (ib.toNat < 0xC0 ∧ 28 ≤ ib.toNat % 32) ∨ (0xC0 ≤ ib.toNat ∧ ib ≠ 0xF4 ∧ ib ≠ 0xF5)) : FailsAt cfg b p d p
  | argument {p d mt j : Nat} {ib : Byte} (hd : DepthOk cfg d) (hb : b[p]? = some ib) (hm : mt ≤ 5) (hj : j ≤ 3)
      (hi : ib.toNat = 32 * mt + 24 + j) (hl : b.length < p + 1 + 2 ^ j) : FailsAt cfg b p d b.length
  | string {p d mt arg q : Nat} (hd : DepthOk cfg d) (hm : mt = 2 ∨ mt = 3) (hh : HeadAt b p mt arg q)
      (hl : b.length < q + arg) : FailsAt cfg b p d b.length
  | text {p d arg q : Nat} (hd : DepthOk cfg d) (hh : HeadAt b p 3 arg q) (hl : q + arg ≤ b.length)
      (hu : utf8WellFormed (slice b q (q + arg)) = false) : FailsAt cfg b p d p
  | element {p d n q j r e : Nat} {vs : LogicalValues} (hd : DepthOk cfg d) (hh : HeadAt b p 4 n q)
      (hs : ElementsAt cfg b j q (d + 1) vs r) (hj : j < n) (he : FailsAt cfg b r (d + 1) e) : FailsAt cfg b p d e
  | key {p d n q j r e : Nat} {ps : LogicalPairs} (hd : DepthOk cfg d) (hh : HeadAt b p 5 n q)
      (hs : PairsAt cfg b j [] q (d + 1) ps r) (hj : j < n) (he : FailsAt cfg b r (d + 1) e) : FailsAt cfg b p d e
  | duplicate {p d n q j r r' : Nat} {ps : LogicalPairs} {k : LogicalValue} (hd : DepthOk cfg d)
      (hh : HeadAt b p 5 n q) (hs : PairsAt cfg b j [] q (d + 1) ps r) (hj : j < n) (hk : ItemAt cfg b r (d + 1) k r')
      (he : ∃ k' ∈ ps.keys, k'.equiv k = Bool.true) : FailsAt cfg b p d r
  | value {p d n q j r r' e : Nat} {ps : LogicalPairs} {k : LogicalValue} (hd : DepthOk cfg d)
      (hh : HeadAt b p 5 n q) (hs : PairsAt cfg b j [] q (d + 1) ps r) (hj : j < n) (hk : ItemAt cfg b r (d + 1) k r')
      (hn : ∀ k' ∈ ps.keys, k'.equiv k = Bool.false) (he : FailsAt cfg b r' (d + 1) e) : FailsAt cfg b p d e

/-! ## UTF-8 as the table of R158 -/

/-- An octet of a range, ends included. -/
def Between (lo hi : Nat) (o : Byte) : Prop := lo ≤ o.toNat ∧ o.toNat ≤ hi

/-- One sequence of the table of well-formed UTF-8 (41_cbor_decode.md R158), row by row. -/
def IsUtf8Sequence : Octets → Prop
  | [a] => Between 0x00 0x7F a
  | [a, b] => Between 0xC2 0xDF a ∧ Between 0x80 0xBF b
  | [a, b, c] =>
    ((Between 0xE0 0xE0 a ∧ Between 0xA0 0xBF b) ∨ (Between 0xE1 0xEC a ∧ Between 0x80 0xBF b) ∨
      (Between 0xED 0xED a ∧ Between 0x80 0x9F b) ∨ (Between 0xEE 0xEF a ∧ Between 0x80 0xBF b)) ∧
    Between 0x80 0xBF c
  | [a, b, c, d] =>
    ((Between 0xF0 0xF0 a ∧ Between 0x90 0xBF b) ∨ (Between 0xF1 0xF3 a ∧ Between 0x80 0xBF b) ∨
      (Between 0xF4 0xF4 a ∧ Between 0x80 0x8F b)) ∧
    Between 0x80 0xBF c ∧ Between 0x80 0xBF d
  | _ => False

/-! ## Instances -/

/-- The record of the framer instance of a number, the addressed one or a parked one (60_exceptions.md R287). -/
def State.framerOf (s : State) (n : Nat) : Option Framer :=
  if n = s.inst then some s.framer else s.parked.lookup n

/-! ## Conditions and ends of HANDLE -/

/-- The next packet meets an `Idle` record: no message is in progress, or it has timed out (42_hid_reassembly.md R191). -/
def State.MeetsIdle (s : State) : Prop := ∀ a, s.framer.st = .assembling a → 250 < s.clock - a.beginTs

/-- The next packet meets the record a: it is in progress and has not timed out (R191). -/
def State.MeetsRecord (s : State) (a : Assembly) : Prop :=
  s.framer.st = .assembling a ∧ s.clock - a.beginTs ≤ 250

/-- The state after a HANDLE that left the record at st and returned r, and did nothing else: one clock sample and one
result (60_exceptions.md R286, 70_reset_and_hazards.md R312). -/
def State.handledTo (s : State) (st : FramerState) (r : FramerResult) : State :=
  { s with
    framer := { s.framer with st := st }
    clockSamples := s.clockSamples + 1
    results := s.results ++ [.ok (.handled r)] }

/-- Packets presented to HANDLE one after the other, each with its clock sample. -/
def feedPackets : List (Int × Octets) → State → StepOutcome
  | [], s => .next s
  | x :: xs, s =>
    match exec (.handle x.2) { s with clock := x.1 } with
    | .next t => feedPackets xs t
    | .fault f => .fault f
    | .refused r => .refused r

end Sys2Proof.Machine
end

