-- ==== Sys2Proof/Certificates/Slice0/Obligations.lean ====
section
/-! DEFINITION. The statements for the provers, from the numbered rules of spec/. The reference to a rule stands in
each docstring; what is the model's own choice is said there with its log entry. -/

open Sys2Proof Sys2Proof.Machine

/-! ## Encodings and the step -/

/-- Decoding the request of a well-formed instruction gives it back, every operand at every value (30_encoding.md R70,
R80, R81, R95; the wire form of host operands is the model's, log 2). -/
def Obligations.DecodeEncodeRoundTrip : Prop :=
  ∀ i : Instr, i.wf = true → decodeWire (encodeInstr i) = .ok i

/-- What the decoder accepts is well formed, and its encoding is the request it was read from: the octets lose nothing
(operand octets of a refused operation code apart, which nothing reads), and ENCODE takes the tree of the request
(R57, R97, R98; the wire form is the model's, log 2). -/
def Obligations.DecodedInstructionWellFormed : Prop :=
  ∀ (w : Wire) (i : Instr), decodeWire w = .ok i →
    i.wf = true ∧ (encodeInstr i).format = w.format ∧
    ((∀ code, i ≠ .hostOpRefused code) → (encodeInstr i).octets = w.octets) ∧
    ∀ v, i = .encode v → v = w.tree

/-- Words written out from 30_encoding.md decode to the instructions they stand for (R71, R78, R80, R81, R90, R95, R99;
the operand octets of the host-operation word IS_BROADCAST stand as the model lays them out, log 2). -/
def Obligations.SpecWordsDecode : Prop :=
  decodeWire (.plain .cbor [0x19, 0x03, 0xE8]) = .ok (.uintArg16 [0x03, 0xE8]) ∧
  decodeWire (.plain .cbor [0x37]) = .ok (.nintImm16to23 7 []) ∧
  decodeWire (.plain .cbor [0xA2, 0x01]) = .ok (.mapImm0to15 2 [0x01]) ∧
  decodeWire (.plain .cbor [0xF5]) = .ok (.cborTrue []) ∧
  decodeWire (.plain .ctaphid [0xC0, 0xFF, 0xEE, 0x01, 0x90, 0x00]) =
    .ok (.ctaphidCbor ⟨0xC0, 0xFF, 0xEE, 0x01⟩ [0x00]) ∧
  decodeWire (.plain .ctaphid [0xC0, 0xFF, 0xEE, 0x01, 0x7F]) =
    .ok (.ctaphidContPacket ⟨0xC0, 0xFF, 0xEE, 0x01⟩ 127 []) ∧
  decodeWire (.plain .hostOp [0x06, 0xFF, 0xFF, 0xFE, 0xFF]) = .ok (.isBroadcast ⟨0xFF, 0xFF, 0xFE, 0xFF⟩) ∧
  decodeWire (.plain .hostOp [0x0F]) = .ok (.hostOpRefused 7)

/-- A step takes the host's next operation, selects the instance it addresses, lets the ports present the values paired
with it, and executes the instruction its octets decode to (R5, R312; instances: log 7, ports: log 5). -/
def Obligations.StepRunsDecodedInstruction : Prop :=
  ∀ (s s1 : State) (r : Request) (rest : List Request) (i : Instr),
    s.pending = r :: rest → selectInstance r.inst s = some s1 → decodeWire r.wire = .ok i →
    step s = exec i { s1 with clock := r.now, rng := r.rng, pending := rest }

/-- The invariant holds after reset (R34). -/
def Obligations.ResetMeetsInvariant : Prop := State.reset.Inv

/-- Every step keeps the invariant: the record stays well formed (R29, R33), the channel set canonical and within
MAX_CHANNELS (R30, R226), in the addressed instance and in every parked one (R287; how instances are held is the model's, log 7). -/
def Obligations.StepKeepsInvariant : Prop :=
  ∀ s t : State, s.Inv → step s = .next t → t.Inv

/-- What no instruction changes: the number of the addressed instance, the other instances, the parameters and the
configuration, the two ports and the pending operations; and the results so far stay, one more being added (R302, R305,
R287, R12; that no operation changes the configuration is the spec's decision D31, an earlier result D32, another
instance D39, log 12; how they are held is the model's: pending operations log 4, ports log 5, results log 6, instances
log 7, parameters and configuration log 8). -/
def Obligations.ExecFrame : Prop :=
  ∀ (i : Instr) (s t : State), exec i s = .next t →
    t.inst = s.inst ∧ t.parked = s.parked ∧ t.codec = s.codec ∧ t.clock = s.clock ∧ t.rng = s.rng ∧
    t.pending = s.pending ∧ t.framer.config = s.framer.config ∧ ∃ r, t.results = s.results ++ [r]

/-- A step leaves every framer instance but the addressed one as it was (R287; the spec's decision D39; how instances
are held is the model's, log 7). -/
def Obligations.InstancesAreIsolated : Prop :=
  ∀ (s t : State) (r : Request) (rest : List Request), s.Inv → s.pending = r :: rest → step s = .next t →
    t.inst = r.inst ∧ ∀ n, n ≠ r.inst → t.framerOf n = s.framerOf n

/-! ## DECODE -/

/-- The codec holds no state: ENCODE, DECODE, DECODE_ALL and every row of the CBOR initial octet complete in every
state, change nothing but add their result, and the result depends on the operands and the parameters alone (R23, R271). -/
def Obligations.CodecKeepsNoState : Prop :=
  ∀ (i : Instr) (s s' : State),
    ((encodeInstr i).format = .cbor ∨ (∃ v, i = .encode v) ∨ (∃ b, i = .decode b) ∨ ∃ b, i = .decodeAll b) →
    s.codec = s'.codec →
    ∃ r, exec i s = .next { s with results := s.results ++ [r] } ∧
      exec i s' = .next { s' with results := s'.results ++ [r] }

/-- The UINT rows: the value is the argument, big-endian in 1, 2, 4 or 8 octets, and nothing after the item is read; a
truncated argument is the only error (R154, R71, R72, R51; that a small argument in a longer head, such as 18 05, is
accepted, R162, is the spec's decision D7, log 12). -/
def Obligations.UnsignedItemRows : Prop :=
  ∀ s : State, s.codec.maxDepth ≠ some 0 →
    (∀ ai tail, exec (.uintImm0to15 ai tail) s = .next (s.answer (.ok (.decoded (.int ai.toNat) 1)))) ∧
    (∀ lo tail, exec (.uintImm16to23 lo tail) s =
      .next (s.answer (.ok (.decoded (.int (16 + lo.toNat : Nat)) 1)))) ∧
    (∀ a tail, a.length = 1 → exec (.uintArg8 (a ++ tail)) s =
      .next (s.answer (.ok (.decoded (.int (uintBe a)) 2)))) ∧
    (∀ a tail, a.length = 2 → exec (.uintArg16 (a ++ tail)) s =
      .next (s.answer (.ok (.decoded (.int (uintBe a)) 3)))) ∧
    (∀ a tail, a.length = 4 → exec (.uintArg32 (a ++ tail)) s =
      .next (s.answer (.ok (.decoded (.int (uintBe a)) 5)))) ∧
    (∀ a tail, a.length = 8 → exec (.uintArg64 (a ++ tail)) s =
      .next (s.answer (.ok (.decoded (.int (uintBe a)) 9)))) ∧
    (∀ tail, (tail.length < 1 → ∃ p, exec (.uintArg8 tail) s = .next (s.answer (.err (.invalidCbor p)))) ∧
      (tail.length < 2 → ∃ p, exec (.uintArg16 tail) s = .next (s.answer (.err (.invalidCbor p)))) ∧
      (tail.length < 4 → ∃ p, exec (.uintArg32 tail) s = .next (s.answer (.err (.invalidCbor p)))) ∧
      (tail.length < 8 → ∃ p, exec (.uintArg64 tail) s = .next (s.answer (.err (.invalidCbor p)))))

/-- The NINT rows: an argument u yields -1 - u; a truncated argument is the only error (R155, R75; that non-minimal
heads are accepted, R162, is the spec's decision D7, log 12). -/
def Obligations.NegativeItemRows : Prop :=
  ∀ s : State, s.codec.maxDepth ≠ some 0 →
    (∀ ai tail, exec (.nintImm0to15 ai tail) s = .next (s.answer (.ok (.decoded (.int (-1 - ai.toNat)) 1)))) ∧
    (∀ lo tail, exec (.nintImm16to23 lo tail) s =
      .next (s.answer (.ok (.decoded (.int (-17 - lo.toNat)) 1)))) ∧
    (∀ a tail, a.length = 1 → exec (.nintArg8 (a ++ tail)) s =
      .next (s.answer (.ok (.decoded (.int (-1 - uintBe a)) 2)))) ∧
    (∀ a tail, a.length = 2 → exec (.nintArg16 (a ++ tail)) s =
      .next (s.answer (.ok (.decoded (.int (-1 - uintBe a)) 3)))) ∧
    (∀ a tail, a.length = 4 → exec (.nintArg32 (a ++ tail)) s =
      .next (s.answer (.ok (.decoded (.int (-1 - uintBe a)) 5)))) ∧
    (∀ a tail, a.length = 8 → exec (.nintArg64 (a ++ tail)) s =
      .next (s.answer (.ok (.decoded (.int (-1 - uintBe a)) 9)))) ∧
    (∀ tail, (tail.length < 1 → ∃ p, exec (.nintArg8 tail) s = .next (s.answer (.err (.invalidCbor p)))) ∧
      (tail.length < 2 → ∃ p, exec (.nintArg16 tail) s = .next (s.answer (.err (.invalidCbor p)))) ∧
      (tail.length < 4 → ∃ p, exec (.nintArg32 tail) s = .next (s.answer (.err (.invalidCbor p)))) ∧
      (tail.length < 8 → ∃ p, exec (.nintArg64 tail) s = .next (s.answer (.err (.invalidCbor p)))))

/-- The BSTR rows: the argument counts the content octets, which are returned unchanged (R156, R76; that non-minimal
length heads such as 58 00 are accepted, R162, is the spec's decision D7, log 12). -/
def Obligations.ByteStringRows : Prop :=
  ∀ s : State, s.codec.maxDepth ≠ some 0 →
    (∀ ai c tail, c.length = ai.toNat → exec (.bstrImm0to15 ai (c ++ tail)) s =
      .next (s.answer (.ok (.decoded (.bytes c) (1 + c.length))))) ∧
    (∀ lo c tail, c.length = 16 + lo.toNat → exec (.bstrImm16to23 lo (c ++ tail)) s =
      .next (s.answer (.ok (.decoded (.bytes c) (1 + c.length))))) ∧
    (∀ a c tail, a.length = 1 → uintBe a = c.length → exec (.bstrArg8 (a ++ (c ++ tail))) s =
      .next (s.answer (.ok (.decoded (.bytes c) (2 + c.length))))) ∧
    (∀ a c tail, a.length = 2 → uintBe a = c.length → exec (.bstrArg16 (a ++ (c ++ tail))) s =
      .next (s.answer (.ok (.decoded (.bytes c) (3 + c.length))))) ∧
    (∀ a c tail, a.length = 4 → uintBe a = c.length → exec (.bstrArg32 (a ++ (c ++ tail))) s =
      .next (s.answer (.ok (.decoded (.bytes c) (5 + c.length))))) ∧
    (∀ a c tail, a.length = 8 → uintBe a = c.length → exec (.bstrArg64 (a ++ (c ++ tail))) s =
      .next (s.answer (.ok (.decoded (.bytes c) (9 + c.length)))))

/-- The TSTR rows: well-formed UTF-8 content is returned as text; content that is not fails at the initial octet
(R157; that ill-formed text fails is the spec's decision D9, that non-minimal length heads are accepted, R162, D7, log
12; the table of well-formed UTF-8 is log 11). -/
def Obligations.TextStringRows : Prop :=
  ∀ s : State, s.codec.maxDepth ≠ some 0 →
    (∀ ai c tail, c.length = ai.toNat → exec (.tstrImm0to15 ai (c ++ tail)) s =
      .next (s.answer (if utf8WellFormed c then .ok (.decoded (.text c) (1 + c.length)) else .err (.invalidCbor 0)))) ∧
    (∀ lo c tail, c.length = 16 + lo.toNat → exec (.tstrImm16to23 lo (c ++ tail)) s =
      .next (s.answer (if utf8WellFormed c then .ok (.decoded (.text c) (1 + c.length)) else .err (.invalidCbor 0)))) ∧
    (∀ a c tail, a.length = 1 → uintBe a = c.length → exec (.tstrArg8 (a ++ (c ++ tail))) s =
      .next (s.answer (if utf8WellFormed c then .ok (.decoded (.text c) (2 + c.length)) else .err (.invalidCbor 0)))) ∧
    (∀ a c tail, a.length = 2 → uintBe a = c.length → exec (.tstrArg16 (a ++ (c ++ tail))) s =
      .next (s.answer (if utf8WellFormed c then .ok (.decoded (.text c) (3 + c.length)) else .err (.invalidCbor 0)))) ∧
    (∀ a c tail, a.length = 4 → uintBe a = c.length → exec (.tstrArg32 (a ++ (c ++ tail))) s =
      .next (s.answer (if utf8WellFormed c then .ok (.decoded (.text c) (5 + c.length)) else .err (.invalidCbor 0)))) ∧
    (∀ a c tail, a.length = 8 → uintBe a = c.length → exec (.tstrArg64 (a ++ (c ++ tail))) s =
      .next (s.answer (if utf8WellFormed c then .ok (.decoded (.text c) (9 + c.length)) else .err (.invalidCbor 0))))

/-- UTF-8 well-formedness: a concatenation of zero or more sequences, each matching a row of the table (R158; the
table is the spec's from general knowledge, log 11). -/
def Obligations.Utf8IsConcatenationOfTableRows : Prop :=
  ∀ s : Octets, utf8WellFormed s = true ↔ ∃ parts : List Octets, s = parts.flatten ∧ ∀ p ∈ parts, IsUtf8Sequence p

/-- The ARRAY rows: the argument counts the items that follow, one after the other and one level deeper (R159, R77;
that non-minimal heads are accepted, R162, is the spec's decision D7, log 12). An element that fails is the subject of
MissingAndFailingItems. -/
def Obligations.ArrayRows : Prop :=
  ∀ (s : State) (vs : LogicalValues) (r : Nat), s.codec.maxDepth ≠ some 0 →
    (∀ (ai : BitVec 4) (tail : Octets), ElementsAt s.codec (((8 : BitVec 4) ++ ai) :: tail) ai.toNat 1 2 vs r →
      exec (.arrayImm0to15 ai tail) s = .next (s.answer (.ok (.decoded (.array vs) r)))) ∧
    (∀ (lo : BitVec 3) (tail : Octets), ElementsAt s.codec (((18 : BitVec 5) ++ lo) :: tail) (16 + lo.toNat) 1 2 vs r →
      exec (.arrayImm16to23 lo tail) s = .next (s.answer (.ok (.decoded (.array vs) r)))) ∧
    (∀ a tail, a.length = 1 → ElementsAt s.codec (0x98 :: (a ++ tail)) (uintBe a) 2 2 vs r →
      exec (.arrayArg8 (a ++ tail)) s = .next (s.answer (.ok (.decoded (.array vs) r)))) ∧
    (∀ a tail, a.length = 2 → ElementsAt s.codec (0x99 :: (a ++ tail)) (uintBe a) 3 2 vs r →
      exec (.arrayArg16 (a ++ tail)) s = .next (s.answer (.ok (.decoded (.array vs) r)))) ∧
    (∀ a tail, a.length = 4 → ElementsAt s.codec (0x9A :: (a ++ tail)) (uintBe a) 5 2 vs r →
      exec (.arrayArg32 (a ++ tail)) s = .next (s.answer (.ok (.decoded (.array vs) r)))) ∧
    (∀ a tail, a.length = 8 → ElementsAt s.codec (0x9B :: (a ++ tail)) (uintBe a) 9 2 vs r →
      exec (.arrayArg64 (a ++ tail)) s = .next (s.answer (.ok (.decoded (.array vs) r))))

/-- The MAP rows: the argument counts the pairs that follow, key then value, in wire order and with no two keys `≈`
(R160, R77, R163; that duplicates are refused is the spec's decision D6, that non-minimal heads are accepted, R162, D7,
and that any key order is accepted D8, log 12). A key or value that fails is the subject of MissingAndFailingItems. -/
def Obligations.MapRows : Prop :=
  ∀ (s : State) (ps : LogicalPairs) (r : Nat), s.codec.maxDepth ≠ some 0 →
    (∀ (ai : BitVec 4) (tail : Octets), PairsAt s.codec (((10 : BitVec 4) ++ ai) :: tail) ai.toNat [] 1 2 ps r →
      exec (.mapImm0to15 ai tail) s = .next (s.answer (.ok (.decoded (.map ps) r)))) ∧
    (∀ (lo : BitVec 3) (tail : Octets), PairsAt s.codec (((22 : BitVec 5) ++ lo) :: tail) (16 + lo.toNat) [] 1 2 ps r →
      exec (.mapImm16to23 lo tail) s = .next (s.answer (.ok (.decoded (.map ps) r)))) ∧
    (∀ a tail, a.length = 1 → PairsAt s.codec (0xB8 :: (a ++ tail)) (uintBe a) [] 2 2 ps r →
      exec (.mapArg8 (a ++ tail)) s = .next (s.answer (.ok (.decoded (.map ps) r)))) ∧
    (∀ a tail, a.length = 2 → PairsAt s.codec (0xB9 :: (a ++ tail)) (uintBe a) [] 3 2 ps r →
      exec (.mapArg16 (a ++ tail)) s = .next (s.answer (.ok (.decoded (.map ps) r)))) ∧
    (∀ a tail, a.length = 4 → PairsAt s.codec (0xBA :: (a ++ tail)) (uintBe a) [] 5 2 ps r →
      exec (.mapArg32 (a ++ tail)) s = .next (s.answer (.ok (.decoded (.map ps) r)))) ∧
    (∀ a tail, a.length = 8 → PairsAt s.codec (0xBB :: (a ++ tail)) (uintBe a) [] 9 2 ps r →
      exec (.mapArg64 (a ++ tail)) s = .next (s.answer (.ok (.decoded (.map ps) r))))

/-- The FALSE and TRUE rows: the value is the boolean, one octet is consumed, whatever follows (R161, R78). -/
def Obligations.BooleanRows : Prop :=
  ∀ (s : State) (tail : Octets), s.codec.maxDepth ≠ some 0 →
    exec (.cborFalse tail) s = .next (s.answer (.ok (.decoded (.bool false) 1))) ∧
    exec (.cborTrue tail) s = .next (s.answer (.ok (.decoded (.bool true) 1)))

/-- The rows of invalid initial octets: reserved additional information, tags and every simple value but false and
true fail with InvalidCbor at that octet, whatever follows (R153, R97; the offset is the spec's decision D16, ai 31
D10, log 12). -/
def Obligations.InvalidInitialOctetRows : Prop :=
  ∀ (s : State) (l1 : BitVec 1) (l2 : BitVec 2) (l4 : BitVec 4) (l5 : BitVec 5) (tail : Octets),
    ∀ i ∈ [Instr.uintRsvdAi28to31 l2 tail, .nintRsvdAi28to31 l2 tail, .bstrRsvdAi28to31 l2 tail,
        .tstrRsvdAi28to31 l2 tail, .arrayRsvdAi28to31 l2 tail, .mapRsvdAi28to31 l2 tail, .tagUnsupported l5 tail,
        .simpleE0toEFInvalid l4 tail, .simpleF0toF3Invalid l2 tail, .simpleF6toF7Invalid l1 tail,
        .simpleF8toFBInvalid l2 tail, .simpleFCtoFFInvalid l2 tail],
      exec i s = .next (s.answer (.err (.invalidCbor 0)))

/-- DECODE of a non-empty input does what the row of its first octet does: the rows are the forms of DECODE (R150, R97;
that a row is an instruction of its own is the model's reading of the table, log 1). -/
def Obligations.DecodeRunsTheRowOfItsFirstOctet : Prop :=
  ∀ (s : State) (ib : Byte) (tail : Octets) (i : Instr), decodeWire (.plain .cbor (ib :: tail)) = .ok i →
    exec (.decode (ib :: tail)) s = exec i s

/-- A truncated argument of the outermost item fails with InvalidCbor at the end of the input, row by row (R151, R152,
R167; the offset is the spec's decision D13, log 12). Nested items are the subject of MissingAndFailingItems. -/
def Obligations.TruncatedArguments : Prop :=
  ∀ (s : State) (tail : Octets), s.codec.maxDepth ≠ some 0 →
    (tail.length < 1 → ∀ i ∈ [Instr.uintArg8 tail, .nintArg8 tail, .bstrArg8 tail, .tstrArg8 tail, .arrayArg8 tail,
      .mapArg8 tail], exec i s = .next (s.answer (.err (.invalidCbor (1 + tail.length))))) ∧
    (tail.length < 2 → ∀ i ∈ [Instr.uintArg16 tail, .nintArg16 tail, .bstrArg16 tail, .tstrArg16 tail,
      .arrayArg16 tail, .mapArg16 tail], exec i s = .next (s.answer (.err (.invalidCbor (1 + tail.length))))) ∧
    (tail.length < 4 → ∀ i ∈ [Instr.uintArg32 tail, .nintArg32 tail, .bstrArg32 tail, .tstrArg32 tail,
      .arrayArg32 tail, .mapArg32 tail], exec i s = .next (s.answer (.err (.invalidCbor (1 + tail.length))))) ∧
    (tail.length < 8 → ∀ i ∈ [Instr.uintArg64 tail, .nintArg64 tail, .bstrArg64 tail, .tstrArg64 tail,
      .arrayArg64 tail, .mapArg64 tail], exec i s = .next (s.answer (.err (.invalidCbor (1 + tail.length)))))

/-- A truncated string that is the outermost item fails with InvalidCbor at the end of the input, before any look at
its text (R156, R157, R168; the offset is the spec's decision D13, log 12). Nested items are the subject of
MissingAndFailingItems. -/
def Obligations.TruncatedStrings : Prop :=
  ∀ (s : State) (b : Octets) (mt arg q : Nat), s.codec.maxDepth ≠ some 0 → (mt = 2 ∨ mt = 3) →
    HeadAt b 0 mt arg q → b.length < q + arg →
    exec (.decode b) s = .next (s.answer (.err (.invalidCbor b.length)))

/-- The errors of DECODE are exactly those of `FailsAt`, at their offsets and at every depth. So a missing element, key
or value of the outermost container fails at the end of the input, and an element, a key or a value that fails, at any
offset, makes the whole fail at that offset (R151-R153, R156, R157, R159, R160, R164, R167, R168; which inputs fail
rests on the spec's decisions D6, D7, D9, D10, D15 and D16, the offsets on D13, log 12, and UTF-8 on log 11). -/
def Obligations.MissingAndFailingItems : Prop :=
  ∀ (s : State) (b : Octets),
    let fails := fun e : Nat => exec (.decode b) s = .next (s.answer (.err (.invalidCbor e)))
    (∀ e, fails e ↔ FailsAt s.codec b 0 1 e) ∧
    (s.codec.maxDepth ≠ some 0 → ∀ n j q : Nat, j < n →
      (∀ vs r, HeadAt b 0 4 n q → ElementsAt s.codec b j q 2 vs r →
        (r = b.length → fails b.length) ∧ ∀ e, FailsAt s.codec b r 2 e → fails e) ∧
      (∀ ps r, HeadAt b 0 5 n q → PairsAt s.codec b j [] q 2 ps r →
        (r = b.length → fails b.length) ∧ (∀ e, FailsAt s.codec b r 2 e → fails e) ∧
        (∀ k r', ItemAt s.codec b r 2 k r' → (∀ k' ∈ ps.keys, k'.equiv k = false) →
          (r' = b.length → fails b.length) ∧ ∀ e, FailsAt s.codec b r' 2 e → fails e)))

/-- A key `≈` to an earlier key of the outermost map fails with InvalidCbor at its initial octet, before its value is
read (R160; the spec's decisions D6 and D13, log 12). Nested maps are the subject of MissingAndFailingItems. -/
def Obligations.DuplicateKeyOnDecode : Prop :=
  ∀ (s : State) (b : Octets) (n j q r r' : Nat) (ps : LogicalPairs) (k : LogicalValue),
    s.codec.maxDepth ≠ some 0 → HeadAt b 0 5 n q → PairsAt s.codec b j [] q 2 ps r → j < n →
    ItemAt s.codec b r 2 k r' → (∃ k' ∈ ps.keys, k'.equiv k = true) →
    exec (.decode b) s = .next (s.answer (.err (.invalidCbor r)))

/-- DECODE succeeds exactly on the inputs that start with a whole item of the format, and returns its value and its
length: the reader with its bound on the nesting and the rules as a relation agree (R150-R161; which inputs those are
rests on the spec's decisions D6 to D10 and D15, log 12, and on the UTF-8 table of log 11). -/
def Obligations.DecodeMeetsItemFormat : Prop :=
  ∀ (s : State) (b : Octets) (v : LogicalValue) (q : Nat),
    exec (.decode b) s = .next (s.answer (.ok (.decoded v q))) ↔ ItemAt s.codec b 0 1 v q

/-- DECODE_ALL: the value where the item is the whole input, InvalidCbor at the first trailing octet where it is not,
and every error of DECODE (R166; the error and its offset are the spec's decision D14, log 12). -/
def Obligations.DecodeAllTakesTheWholeInput : Prop :=
  ∀ (s : State) (b : Octets),
    (∀ v, ItemAt s.codec b 0 1 v b.length → exec (.decodeAll b) s = .next (s.answer (.ok (.decodedAll v)))) ∧
    (∀ v q, ItemAt s.codec b 0 1 v q → q ≠ b.length →
      exec (.decodeAll b) s = .next (s.answer (.err (.invalidCbor q)))) ∧
    (∀ p, exec (.decode b) s = .next (s.answer (.err (.invalidCbor p))) →
      exec (.decodeAll b) s = .next (s.answer (.err (.invalidCbor p))))

/-- What DECODE returns: a `CborValue` within MAX_DEPTH, from at least one and at most all octets, and one that ENCODE
accepts under the same parameters (R25, R150, R164, R170; that its keys are unique rests on the spec's decision D6, that
its text is well formed on D9, that it stays within MAX_DEPTH on D15, log 12, and UTF-8 on the table of log 11). -/
def Obligations.DecodedValueIsCborAndEncodes : Prop :=
  ∀ (s : State) (b : Octets) (v : LogicalValue) (n : Nat),
    exec (.decode b) s = .next (s.answer (.ok (.decoded v n))) →
    isCbor v = true ∧ DepthOk s.codec (depthOf v) ∧ 1 ≤ n ∧ n ≤ b.length ∧
    exec (.encode v) s = .next (s.answer (.ok (.encoded (enc s.codec.negKeyOrder v))))

/-! ## ENCODE -/

/-- Round trip: what ENCODE writes for a `CborValue` within MAX_DEPTH decodes to an `≈` value, all of it (R169). -/
def Obligations.EncodeDecodeRoundTrip : Prop :=
  ∀ (s : State) (v : LogicalValue), isCbor v = true → DepthOk s.codec (depthOf v) →
    ∃ e v', exec (.encode v) s = .next (s.answer (.ok (.encoded e))) ∧
      exec (.decode e) s = .next (s.answer (.ok (.decoded v' e.length))) ∧
      exec (.decodeAll e) s = .next (s.answer (.ok (.decodedAll v'))) ∧ v'.equiv v = true

/-- The insertion order of map entries has no effect on the octets, and none on whether ENCODE fails (R123). -/
def Obligations.EncodeIgnoresMapOrder : Prop :=
  ∀ (s : State) (ps qs : LogicalPairs), qs.toList.Perm ps.toList →
    (∀ e, exec (.encode (.map ps)) s = .next (s.answer (.ok (.encoded e))) →
      exec (.encode (.map qs)) s = .next (s.answer (.ok (.encoded e)))) ∧
    (∀ x, exec (.encode (.map ps)) s = .next (s.answer (.err x)) →
      ∃ y, exec (.encode (.map qs)) s = .next (s.answer (.err y)))

/-- The head of every argument is the shortest form, its argument octets big-endian (R73, R124). -/
def Obligations.HeadIsShortestForm : Prop :=
  ∀ (mt : BitVec 3) (a : Nat),
    (a ≤ 23 → head mt a = [BitVec.ofNat 8 (32 * mt.toNat + a)]) ∧
    (24 ≤ a → a ≤ 255 → head mt a = [BitVec.ofNat 8 (32 * mt.toNat + 24), BitVec.ofNat 8 a]) ∧
    (256 ≤ a → a ≤ 65535 →
      head mt a = [BitVec.ofNat 8 (32 * mt.toNat + 25), BitVec.ofNat 8 (a / 256), BitVec.ofNat 8 a]) ∧
    (65536 ≤ a → a ≤ 2 ^ 32 - 1 →
      head mt a = [BitVec.ofNat 8 (32 * mt.toNat + 26), BitVec.ofNat 8 (a / 2 ^ 24), BitVec.ofNat 8 (a / 2 ^ 16),
        BitVec.ofNat 8 (a / 2 ^ 8), BitVec.ofNat 8 a]) ∧
    (2 ^ 32 ≤ a → a ≤ 2 ^ 64 - 1 →
      ∃ x : Octets, head mt a = BitVec.ofNat 8 (32 * mt.toNat + 27) :: x ∧ x.length = 8 ∧ uintBe x = a)

/-- ENCODE of a value without children: the octets of each kind, OutOfRange beyond -2^64..2^64-1 and for a string of
2^64 octets or more, Unsupported for an Other (R111-R114, R117, R118; the range and the length limit are the spec's
decisions D3 and D17, log 12). -/
def Obligations.EncodeScalars : Prop :=
  ∀ s : State, s.codec.maxDepth ≠ some 0 →
    (∀ n : Nat, n < 2 ^ 64 → exec (.encode (.int n)) s = .next (s.answer (.ok (.encoded (head 0 n))))) ∧
    (∀ n : Nat, n < 2 ^ 64 → exec (.encode (.int (-1 - n))) s = .next (s.answer (.ok (.encoded (head 1 n))))) ∧
    (∀ z : Int, z < -(2 ^ 64) ∨ 2 ^ 64 ≤ z → exec (.encode (.int z)) s = .next (s.answer (.err .outOfRange))) ∧
    (∀ b : Octets, b.length < 2 ^ 64 →
      exec (.encode (.bytes b)) s = .next (s.answer (.ok (.encoded (head 2 b.length ++ b)))) ∧
      exec (.encode (.text b)) s = .next (s.answer (.ok (.encoded (head 3 b.length ++ b))))) ∧
    (∀ b : Octets, 2 ^ 64 ≤ b.length →
      exec (.encode (.bytes b)) s = .next (s.answer (.err .outOfRange)) ∧
      exec (.encode (.text b)) s = .next (s.answer (.err .outOfRange))) ∧
    exec (.encode (.bool false)) s = .next (s.answer (.ok (.encoded [0xF4]))) ∧
    exec (.encode (.bool true)) s = .next (s.answer (.ok (.encoded [0xF5]))) ∧
    ∀ k, exec (.encode (.other k)) s = .next (s.answer (.err .unsupported))

/-- An array the check accepts is written as its head and the encodings of its elements in order (R115). -/
def Obligations.EncodeArrays : Prop :=
  ∀ (s : State) (vs : LogicalValues), checkValue s.codec (.array vs) 1 = none →
    exec (.encode (.array vs)) s = .next (s.answer (.ok (.encoded
      (head 4 vs.toList.length ++ (vs.toList.map (enc s.codec.negKeyOrder)).flatten))))

/-- A map the check accepts is written as its head and its entries, each key then value, ascending by key: no entry
precedes one whose key is less than its own (R116). -/
def Obligations.EncodeMapsAscending : Prop :=
  ∀ (s : State) (ps : LogicalPairs), checkValue s.codec (.map ps) 1 = none →
    ∃ es : List Entry,
      es.Perm (ps.toList.map fun p => ⟨p.1, enc s.codec.negKeyOrder p.1, enc s.codec.negKeyOrder p.2⟩) ∧
      es.Pairwise (fun a b => keyLt s.codec.negKeyOrder b a = false) ∧
      exec (.encode (.map ps)) s = .next (s.answer (.ok (.encoded
        (head 5 ps.toList.length ++ (es.map fun e => e.keyOctets ++ e.valueOctets).flatten))))

/-- The canonical key order, on keys with their own encodings: by major type; strings shorter first, then the first
differing octet; unsigned integers numerically; negative ones by NEG_KEY_ORDER; arrays, maps and booleans by their
encodings (R120-R122; the order by encodings is the spec's decision D11 and NEG_KEY_ORDER D12, log 12). -/
def Obligations.CanonicalKeyOrder : Prop :=
  ∀ (ord : NegKeyOrder) (u w : Octets),
    let e := fun k : LogicalValue => (⟨k, enc ord k, u⟩ : Entry)
    let f := fun k : LogicalValue => (⟨k, enc ord k, w⟩ : Entry)
    (∀ a b, keyMajor a ≠ keyMajor b → keyLt ord (e a) (f b) = decide (keyMajor a < keyMajor b)) ∧
    (∀ x y : Octets, x.length ≠ y.length →
      keyLt ord (e (.bytes x)) (f (.bytes y)) = decide (x.length < y.length) ∧
      keyLt ord (e (.text x)) (f (.text y)) = decide (x.length < y.length)) ∧
    (∀ (p x y : Octets) (c d : Byte), x.length = y.length → c ≠ d →
      keyLt ord (e (.bytes (p ++ c :: x))) (f (.bytes (p ++ d :: y))) = decide (c.toNat < d.toNat) ∧
      keyLt ord (e (.text (p ++ c :: x))) (f (.text (p ++ d :: y))) = decide (c.toNat < d.toNat)) ∧
    (∀ x y : Nat, keyLt ord (e (.int x)) (f (.int y)) = decide (x < y)) ∧
    (∀ x y : Int, x < 0 → y < 0 → keyLt ord (e (.int x)) (f (.int y)) =
      match ord with | .numeric => decide (x < y) | .encoded => decide (y < x)) ∧
    (∀ a b, keyMajor a = keyMajor b → (keyMajor a = 4 ∨ keyMajor a = 5 ∨ keyMajor a = 7) →
      keyLt ord (e a) (f b) = octetsLt (enc ord a) (enc ord b))

/-- The first failing node in pre-order decides the error, at every depth: a node's depth, then its own range or length,
then its children in list order, each key before its value, then the duplicate test of a map; a node none of them finds
is clean. ENCODE reports what the check finds at depth 1, and encodes where it finds nothing (R110, R111, R118, R119,
R126; the order is the spec's decision D4, the integer range D3, DuplicateKey D5, MAX_DEPTH D15 and the length limit
D17, log 12). -/
def Obligations.EncodeReportsFirstError : Prop :=
  ∀ cfg : CodecConfig,
    (∀ (s : State) (v : LogicalValue), s.codec = cfg →
      (∀ x, exec (.encode v) s = .next (s.answer (.err x)) ↔ checkValue cfg v 1 = some x) ∧
      (checkValue cfg v 1 = none → exec (.encode v) s = .next (s.answer (.ok (.encoded (enc cfg.negKeyOrder v)))))) ∧
    ∀ d : Nat,
      (¬DepthOk cfg d → ∀ v, checkValue cfg v d = some .unsupported) ∧
      (DepthOk cfg d →
        (∀ z : Int, checkValue cfg (.int z) d = if -(2 ^ 64) ≤ z ∧ z ≤ 2 ^ 64 - 1 then none else some .outOfRange) ∧
        (∀ b : Octets, checkValue cfg (.bytes b) d = (if b.length < 2 ^ 64 then none else some .outOfRange) ∧
          checkValue cfg (.text b) d = if b.length < 2 ^ 64 then none else some .outOfRange) ∧
        (∀ t, checkValue cfg (.bool t) d = none) ∧
        (∀ k, checkValue cfg (.other k) d = some .unsupported) ∧
        (∀ vs : LogicalValues, 2 ^ 64 ≤ vs.toList.length → checkValue cfg (.array vs) d = some .outOfRange) ∧
        (∀ (l m : List LogicalValue) (v : LogicalValue) (x : OpError), (l ++ v :: m).length < 2 ^ 64 →
          (∀ u ∈ l, checkValue cfg u (d + 1) = none) → checkValue cfg v (d + 1) = some x →
          checkValue cfg (.array (.ofList (l ++ v :: m))) d = some x) ∧
        (∀ vs : LogicalValues, vs.toList.length < 2 ^ 64 → (∀ u ∈ vs.toList, checkValue cfg u (d + 1) = none) →
          checkValue cfg (.array vs) d = none) ∧
        (∀ ps : LogicalPairs, 2 ^ 64 ≤ ps.toList.length → checkValue cfg (.map ps) d = some .outOfRange) ∧
        (∀ (l m : List (LogicalValue × LogicalValue)) (k v : LogicalValue) (x : OpError),
          (l ++ (k, v) :: m).length < 2 ^ 64 →
          (∀ p ∈ l, checkValue cfg p.1 (d + 1) = none ∧ checkValue cfg p.2 (d + 1) = none) →
          (checkValue cfg k (d + 1) = some x ∨
            (checkValue cfg k (d + 1) = none ∧ checkValue cfg v (d + 1) = some x)) →
          checkValue cfg (.map (.ofList (l ++ (k, v) :: m))) d = some x) ∧
        (∀ ps : LogicalPairs, ps.toList.length < 2 ^ 64 →
          (∀ p ∈ ps.toList, checkValue cfg p.1 (d + 1) = none ∧ checkValue cfg p.2 (d + 1) = none) →
          ((∃ (i j : Nat) (a b : LogicalValue), i < j ∧ ps.keys[i]? = some a ∧ ps.keys[j]? = some b ∧
              a.equiv b = true) → checkValue cfg (.map ps) d = some .duplicateKey) ∧
          ((∀ (i j : Nat) (a b : LogicalValue), i < j → ps.keys[i]? = some a → ps.keys[j]? = some b →
              a.equiv b = false) → checkValue cfg (.map ps) d = none)))

/-- A finite MAX_DEPTH: a value with a node deeper than it fails with Unsupported on encode, where nothing else is
wrong with it, and no item nested deeper decodes (R119, R164; the spec's decision D15, log 12). -/
def Obligations.NestingDepthIsLimited : Prop :=
  ∀ (s : State) (k : Nat), s.codec.maxDepth = some k →
    (∀ v, isCbor v = true → k < depthOf v → exec (.encode v) s = .next (s.answer (.err .unsupported))) ∧
    (∀ b v q, ItemAt { s.codec with maxDepth := none } b 0 1 v q → k < depthOf v →
      ∃ p, exec (.decode b) s = .next (s.answer (.err (.invalidCbor p))))

/-! ## HANDLE: no message in progress -/

/-- With no message in progress, a packet of fewer than 7 octets, whatever its octet 4, is answered with ERR_OTHER on the
broadcast channel, and the record stays `Idle` (R192, R207). -/
def Obligations.IdleShortPacket : Prop :=
  ∀ (s : State) (pkt : Octets), s.MeetsIdle → pkt.length < 7 →
    exec (.handle pkt) s = .next (s.handledTo .idle (.complete ⟨⟨0xFF, 0xFF, 0xFF, 0xFF⟩, 0x3F, [0x7F]⟩))

/-- With no message in progress, a continuation packet of 7 octets or more is answered with ERR_INVALID_CMD on the broadcast
channel, and the record stays `Idle` (R193, R207). -/
def Obligations.IdleContinuationPacket : Prop :=
  ∀ (s : State) (cid : Cid) (seq : BitVec 7) (tail : Octets), s.MeetsIdle → 2 ≤ tail.length → tail.length ≤ 59 →
    exec (.ctaphidContPacket cid seq tail) s =
      .next (s.handledTo .idle (.complete ⟨⟨0xFF, 0xFF, 0xFF, 0xFF⟩, 0x3F, [0x01]⟩))

/-- With no message in progress, an initialization packet of any command on a channel that is neither broadcast nor
allocated is answered with ERR_INVALID_CHANNEL on the broadcast channel, and the record stays `Idle` (R195, R207). -/
def Obligations.IdleUnallocatedChannel : Prop :=
  ∀ (s : State) (cid : Cid) (cmd : BitVec 7) (tail : Octets), s.MeetsIdle → 2 ≤ tail.length → tail.length ≤ 59 →
    cid ≠ ⟨0xFF, 0xFF, 0xFF, 0xFF⟩ → cid ∉ s.framer.channels →
    exec (decodeCommand cid cmd tail) s =
      .next (s.handledTo .idle (.complete ⟨⟨0xFF, 0xFF, 0xFF, 0xFF⟩, 0x3F, [0x0B]⟩))

/-- An initialization packet of any command on the broadcast channel or an allocated one that carries fewer octets than
it declares starts a message: the record holds its cid, command, declared length and octets, no sequence number and the
clock sample, and nothing is delivered (R194-R196, R206). -/
def Obligations.AssemblyStarts : Prop :=
  ∀ (s : State) (cid : Cid) (cmd : BitVec 7) (hi lo : Byte) (data : Octets), s.MeetsIdle → data.length ≤ 57 →
    (cid = ⟨0xFF, 0xFF, 0xFF, 0xFF⟩ ∨ cid ∈ s.framer.channels) → data.length < 256 * hi.toNat + lo.toNat →
    exec (decodeCommand cid cmd (hi :: lo :: data)) s =
      .next (s.handledTo (.assembling ⟨cid, cmd, hi ++ lo, data, none, s.clock⟩) .inProgress)

/-- A message of one packet of every command but INIT, on an allocated channel, is delivered with its first bcnt
payload octets (R196, R202, R205, R227, R228, R98; that extra octets are cut off is the spec's decision D22, the
delivery of every other command D27, log 12). -/
def Obligations.SinglePacketDelivery : Prop :=
  ∀ (s : State) (cid : Cid) (hi lo : Byte) (data : Octets), s.MeetsIdle → data.length ≤ 57 →
    cid ≠ ⟨0xFF, 0xFF, 0xFF, 0xFF⟩ → cid ∈ s.framer.channels → 256 * hi.toNat + lo.toNat ≤ data.length →
    let tail := hi :: lo :: data
    let delivered := fun cmd : BitVec 7 =>
      (Host.Outcome.next (s.handledTo .idle (.complete ⟨cid, cmd, data.take (256 * hi.toNat + lo.toNat)⟩)) :
        StepOutcome)
    exec (.ctaphidPing cid tail) s = delivered 0x01 ∧
    exec (.ctaphidMsg cid tail) s = delivered 0x03 ∧
    exec (.ctaphidLock cid tail) s = delivered 0x04 ∧
    exec (.ctaphidWink cid tail) s = delivered 0x08 ∧
    exec (.ctaphidCbor cid tail) s = delivered 0x10 ∧
    exec (.ctaphidCancel cid tail) s = delivered 0x11 ∧
    exec (.ctaphidKeepalive cid tail) s = delivered 0x3B ∧
    exec (.ctaphidError cid tail) s = delivered 0x3F ∧
    ∀ cmd, (Instr.ctaphidInitPacketOtherCmd cid cmd tail).wf = true →
      exec (.ctaphidInitPacketOtherCmd cid cmd tail) s = delivered cmd

/-- A complete message of any command but INIT on the broadcast channel is rejected at completion, even where a draw
has put the broadcast value into the set (R204, R31; a drawn broadcast value is the spec's decision D24, log 12). -/
def Obligations.BroadcastNonInitRejected : Prop :=
  ∀ (s : State) (cmd : BitVec 7) (hi lo : Byte) (data : Octets), s.MeetsIdle → data.length ≤ 57 → cmd ≠ 0x06 →
    256 * hi.toNat + lo.toNat ≤ data.length →
    exec (decodeCommand ⟨0xFF, 0xFF, 0xFF, 0xFF⟩ cmd (hi :: lo :: data)) s =
      .next (s.handledTo .idle (.complete ⟨⟨0xFF, 0xFF, 0xFF, 0xFF⟩, 0x3F, [0x0B]⟩))

/-! ## INIT -/

/-- INIT on the broadcast channel, in one packet: one draw, its answer joins the set, and the response names it
(R220-R222, R225; that the answer is taken whatever it is, is the spec's decision D24, that the broadcast test comes
first, even where the set holds the broadcast value, D26, the configuration octets D31, log 12). -/
def Obligations.InitOnBroadcastAllocates : Prop :=
  ∀ (s : State) (hi lo : Byte) (data : Octets), s.MeetsIdle → data.length ≤ 57 →
    8 ≤ 256 * hi.toNat + lo.toNat → 256 * hi.toNat + lo.toNat ≤ data.length →
    (∀ k, s.framer.config.maxChannels = some k → s.framer.channels.length < k) →
    exec (.ctaphidInit ⟨0xFF, 0xFF, 0xFF, 0xFF⟩ (hi :: lo :: data)) s = .next
      { s with
        framer := { s.framer with st := .idle, channels := insertChannel s.rng s.framer.channels }
        clockSamples := s.clockSamples + 1
        rngDraws := s.rngDraws + 1
        results := s.results ++ [.ok (.handled (.complete ⟨⟨0xFF, 0xFF, 0xFF, 0xFF⟩, 0x06,
          data.take 8 ++ [s.rng.o0, s.rng.o1, s.rng.o2, s.rng.o3, 0x02, s.framer.config.vmaj, s.framer.config.vmin,
            s.framer.config.build, 0x0D]⟩))] }

/-- Adding a channel is adding a member: nothing else joins or leaves the set, and a member already present leaves it
unchanged (R30). -/
def Obligations.ChannelInsertIsUnion : Prop :=
  ∀ (c : Cid) (cs : List Cid),
    (∀ x, x ∈ insertChannel c cs ↔ x = c ∨ x ∈ cs) ∧
    (ChannelsWf cs → c ∈ cs → insertChannel c cs = cs)

/-- INIT on an allocated channel: the response echoes it, with no draw and the set unchanged (R223). -/
def Obligations.InitOnAllocatedChannel : Prop :=
  ∀ (s : State) (cid : Cid) (hi lo : Byte) (data : Octets), s.MeetsIdle → data.length ≤ 57 →
    cid ≠ ⟨0xFF, 0xFF, 0xFF, 0xFF⟩ → cid ∈ s.framer.channels →
    8 ≤ 256 * hi.toNat + lo.toNat → 256 * hi.toNat + lo.toNat ≤ data.length →
    exec (.ctaphidInit cid (hi :: lo :: data)) s = .next (s.handledTo .idle (.complete ⟨cid, 0x06,
      data.take 8 ++ [cid.o0, cid.o1, cid.o2, cid.o3, 0x02, s.framer.config.vmaj, s.framer.config.vmin,
        s.framer.config.build, 0x0D]⟩))

/-- INIT with fewer than 8 payload octets: INVALID_LEN to the request's cid, no allocation and no draw (R224; the
spec's decision D23, log 12). -/
def Obligations.InitTooShort : Prop :=
  ∀ (s : State) (cid : Cid) (hi lo : Byte) (data : Octets), s.MeetsIdle → data.length ≤ 57 →
    (cid = ⟨0xFF, 0xFF, 0xFF, 0xFF⟩ ∨ cid ∈ s.framer.channels) →
    256 * hi.toNat + lo.toNat < 8 → 256 * hi.toNat + lo.toNat ≤ data.length →
    exec (.ctaphidInit cid (hi :: lo :: data)) s = .next (s.handledTo .idle (.complete ⟨cid, 0x3F, [0x03]⟩))

/-- INIT on the broadcast channel with the channel table full: OTHER to the broadcast channel and no draw (R226; the
spec's decision D25, log 12). -/
def Obligations.ChannelTableFull : Prop :=
  ∀ (s : State) (hi lo : Byte) (data : Octets) (k : Nat), s.MeetsIdle → data.length ≤ 57 →
    8 ≤ 256 * hi.toNat + lo.toNat → 256 * hi.toNat + lo.toNat ≤ data.length →
    s.framer.config.maxChannels = some k → k ≤ s.framer.channels.length →
    exec (.ctaphidInit ⟨0xFF, 0xFF, 0xFF, 0xFF⟩ (hi :: lo :: data)) s =
      .next (s.handledTo .idle (.complete ⟨⟨0xFF, 0xFF, 0xFF, 0xFF⟩, 0x3F, [0x7F]⟩))

/-! ## HANDLE: a message in progress -/

/-- What ends a message in progress: a packet of fewer than 5 octets, an initialization packet on any channel, a
continuation packet of another channel, a sequence number other than the next one; the error goes to the cid of the
message, the packet is consumed (R197-R200, R207, R208; that the packet is consumed is the spec's decision D33, log
12). -/
def Obligations.MessageInProgressErrors : Prop :=
  ∀ (s : State) (a : Assembly), s.MeetsRecord a →
    let failed := fun code : Byte =>
      (Host.Outcome.next (s.handledTo .idle (.complete ⟨a.cid, 0x3F, [code]⟩)) : StepOutcome)
    (∀ pkt : Octets, pkt.length < 5 → exec (.handle pkt) s = failed 0x7F) ∧
    (∀ (cid : Cid) (cmd : BitVec 7) (tail : Octets), tail.length ≤ 59 →
      exec (decodeCommand cid cmd tail) s = failed 0x01) ∧
    (∀ (cid : Cid) (seq : BitVec 7) (tail : Octets), tail.length ≤ 59 → cid ≠ a.cid →
      exec (.ctaphidContPacket cid seq tail) s = failed 0x06) ∧
    (∀ (seq : BitVec 7) (tail : Octets), tail.length ≤ 59 →
      (a.seqLast = none → seq ≠ 0) → (∀ k, a.seqLast = some k → seq.toNat ≠ k.toNat + 1) →
      exec (.ctaphidContPacket a.cid seq tail) s = failed 0x04)

/-- The next continuation packet of the message, where octets are still missing after it: they are appended, the
sequence number is kept (R201, R206; that `begin_ts` is not changed is the spec's decision D20, conflict C2, log 12). -/
def Obligations.ContinuationAccepted : Prop :=
  ∀ (s : State) (a : Assembly) (seq : BitVec 7) (tail : Octets), s.MeetsRecord a → tail.length ≤ 59 →
    seq.toNat = expectedSeq a → (a.received ++ tail).length < a.bcnt.toNat →
    exec (.ctaphidContPacket a.cid seq tail) s = .next (s.handledTo
      (.assembling { a with received := a.received ++ tail, seqLast := some seq }) .inProgress)

/-- The continuation packet that completes the message: the first bcnt octets are delivered; any message but INIT on the
broadcast channel or a channel not allocated is rejected; an INIT ends as one of a single packet does: too short,
answered on the allocated channel it came on, answered on the broadcast channel with one draw that joins the set,
refused there where the table is full, or rejected on a channel not allocated (R202, R204, R205, R220-R226; the cut to
bcnt octets is the spec's decision D22, INVALID_LEN D23, any RNG answer D24, the full table D25, broadcast first D26,
the delivery of every command but INIT D27, the configuration octets D31, log 12). -/
def Obligations.ContinuationCompletes : Prop :=
  ∀ (s : State) (a : Assembly) (seq : BitVec 7) (tail : Octets), s.MeetsRecord a → tail.length ≤ 59 →
    seq.toNat = expectedSeq a → a.bcnt.toNat ≤ (a.received ++ tail).length →
    let ends := fun m : Message =>
      exec (.ctaphidContPacket a.cid seq tail) s = .next (s.handledTo .idle (.complete m))
    (a.cmd ≠ 0x06 → a.cid ≠ ⟨0xFF, 0xFF, 0xFF, 0xFF⟩ → a.cid ∈ s.framer.channels →
      ends ⟨a.cid, a.cmd, (a.received ++ tail).take a.bcnt.toNat⟩) ∧
    (a.cmd ≠ 0x06 → (a.cid = ⟨0xFF, 0xFF, 0xFF, 0xFF⟩ ∨ a.cid ∉ s.framer.channels) → ends ⟨a.cid, 0x3F, [0x0B]⟩) ∧
    (a.cmd = 0x06 → a.cid ≠ ⟨0xFF, 0xFF, 0xFF, 0xFF⟩ → a.cid ∉ s.framer.channels → ends ⟨a.cid, 0x3F, [0x0B]⟩) ∧
    (a.cmd = 0x06 → (a.cid = ⟨0xFF, 0xFF, 0xFF, 0xFF⟩ ∨ a.cid ∈ s.framer.channels) → a.bcnt.toNat < 8 →
      ends ⟨a.cid, 0x3F, [0x03]⟩) ∧
    (a.cmd = 0x06 → a.cid ≠ ⟨0xFF, 0xFF, 0xFF, 0xFF⟩ → a.cid ∈ s.framer.channels → 8 ≤ a.bcnt.toNat →
      ends ⟨a.cid, 0x06, (a.received ++ tail).take 8 ++ [a.cid.o0, a.cid.o1, a.cid.o2, a.cid.o3, 0x02,
        s.framer.config.vmaj, s.framer.config.vmin, s.framer.config.build, 0x0D]⟩) ∧
    (a.cmd = 0x06 → a.cid = ⟨0xFF, 0xFF, 0xFF, 0xFF⟩ → 8 ≤ a.bcnt.toNat →
      (∀ k, s.framer.config.maxChannels = some k → s.framer.channels.length < k) →
      exec (.ctaphidContPacket a.cid seq tail) s = .next
        { s with
          framer := { s.framer with st := .idle, channels := insertChannel s.rng s.framer.channels }
          clockSamples := s.clockSamples + 1
          rngDraws := s.rngDraws + 1
          results := s.results ++ [.ok (.handled (.complete ⟨⟨0xFF, 0xFF, 0xFF, 0xFF⟩, 0x06,
            (a.received ++ tail).take 8 ++ [s.rng.o0, s.rng.o1, s.rng.o2, s.rng.o3, 0x02, s.framer.config.vmaj,
              s.framer.config.vmin, s.framer.config.build, 0x0D]⟩))] }) ∧
    (∀ k, a.cmd = 0x06 → a.cid = ⟨0xFF, 0xFF, 0xFF, 0xFF⟩ → 8 ≤ a.bcnt.toNat →
      s.framer.config.maxChannels = some k → k ≤ s.framer.channels.length →
      ends ⟨⟨0xFF, 0xFF, 0xFF, 0xFF⟩, 0x3F, [0x7F]⟩)

/-- A packet more than 250 ms after the message's initialization packet is handled exactly as by an idle framer with
the same channels (R191, R230; the spec's decisions D20 and D21, log 12). -/
def Obligations.TimeoutIsAFreshStart : Prop :=
  ∀ (s : State) (a : Assembly) (pkt : Octets), s.framer.st = .assembling a → 250 < s.clock - a.beginTs →
    exec (.handle pkt) s = exec (.handle pkt) { s with framer := { s.framer with st := .idle } }

/-! ## HANDLE: whole-machine rules -/

/-- The packet rows are HANDLE of the packet with that octet 4 (R80-R82, R90; log 1). -/
def Obligations.PacketRowsAreHandle : Prop :=
  ∀ (s : State) (cid : Cid) (tail : Octets),
    let handled := fun k : Byte => exec (.handle (cid.o0 :: cid.o1 :: cid.o2 :: cid.o3 :: k :: tail)) s
    exec (.ctaphidPing cid tail) s = handled 0x81 ∧
    exec (.ctaphidMsg cid tail) s = handled 0x83 ∧
    exec (.ctaphidLock cid tail) s = handled 0x84 ∧
    exec (.ctaphidInit cid tail) s = handled 0x86 ∧
    exec (.ctaphidWink cid tail) s = handled 0x88 ∧
    exec (.ctaphidCbor cid tail) s = handled 0x90 ∧
    exec (.ctaphidCancel cid tail) s = handled 0x91 ∧
    exec (.ctaphidKeepalive cid tail) s = handled 0xBB ∧
    exec (.ctaphidError cid tail) s = handled 0xBF ∧
    (∀ cmd : BitVec 7, exec (.ctaphidInitPacketOtherCmd cid cmd tail) s = handled (BitVec.ofNat 8 (128 + cmd.toNat))) ∧
    (∀ seq : BitVec 7, exec (.ctaphidContPacket cid seq tail) s = handled (BitVec.ofNat 8 seq.toNat))

/-- HANDLE is total on packets of 0 to 64 octets: it ends with one framer result, never an Err, after one sample of
the clock; a longer packet is refused (R231, R190, R286, R57; that no Error is returned is the spec's decision D41,
log 12; the refusal is the model's, log 9). -/
def Obligations.HandleIsTotal : Prop :=
  ∀ (s : State) (pkt : Octets),
    (pkt.length ≤ 64 → ∃ t r, exec (.handle pkt) s = .next t ∧ t.results = s.results ++ [.ok (.handled r)] ∧
      t.clockSamples = s.clockSamples + 1) ∧
    (64 < pkt.length → exec (.handle pkt) s = .refused (.packetTooLong pkt.length))

/-- The channel set changes only by RESET and by an INIT answered on the broadcast channel, which adds the RNG's answer
and is the only draw; no other instruction changes the set or draws (R30, R221, R285). -/
def Obligations.ChannelsGrowOnlyByInit : Prop :=
  ∀ (i : Instr) (s t : State), exec i s = .next t → i ≠ .reset →
    (t.framer.channels = s.framer.channels ∧ t.rngDraws = s.rngDraws) ∨
    (t.framer.channels = insertChannel s.rng s.framer.channels ∧ t.rngDraws = s.rngDraws + 1 ∧
      ∃ data, t.results =
        s.results ++ [.ok (.handled (.complete ⟨⟨0xFF, 0xFF, 0xFF, 0xFF⟩, 0x06, data⟩))])

/-- A delivery of command ERROR carries one of the codes 01, 03, 04, 06, 0B, 7F, never INVALID_PAR, MSG_TIMEOUT or
LOCK_REQUIRED, unless the message itself was sent with command ERROR (R273, R207, R227; the spec's decisions D21, D23
and D25, log 12). -/
def Obligations.EmittedErrorCodes : Prop :=
  ∀ (s t : State) (pkt : Octets) (c : Cid) (d : Octets), exec (.handle pkt) s = .next t →
    t.results = s.results ++ [.ok (.handled (.complete ⟨c, 0x3F, d⟩))] →
    d ∈ ([[0x01], [0x03], [0x04], [0x06], [0x0B], [0x7F]] : List Octets) ∨
    pkt[4]? = some 0xBF ∨ ∃ a, s.framer.st = .assembling a ∧ a.cmd = 0x3F

/-- Conservation (R229): the data of a message delivered by its last packet are the first bcnt octets of the payloads of
its packets in order. The premise asks that every packet but the last ended in progress and that none came later than
250 ms after the first (after a timeout a packet starts a message of its own, R191). A message sent with command ERROR
is the subject of SinglePacketDelivery and ContinuationCompletes. -/
def Obligations.FramerConservation : Prop :=
  ∀ (s t : State) (now : Int) (pkt : Octets) (more : List (Int × Octets)) (m : Message), s.framer.st = .idle →
    (∀ x ∈ more, x.1 - now ≤ 250) →
    feedPackets ((now, pkt) :: more) s = .next t →
    t.results = s.results ++ List.replicate more.length (.ok (.handled .inProgress)) ++
      [.ok (.handled (.complete m))] →
    m.cmd ≠ 0x3F → m.cmd ≠ 0x06 →
    m.data = (pkt.drop 7 ++ (more.map fun x => x.2.drop 5).flatten).take (pktBcnt pkt).toNat ∧
    m.data.length = (pktBcnt pkt).toNat

/-! ## The other host operations -/

/-- EMIT: the packets, their number, their order and every octet of them; a payload of more than 7609 octets fails
with EmitTooLong; nothing but the result changes (R240-R247, R251; the limit and its error are the spec's decision
D30, the list in one step D29, log 12). -/
def Obligations.EmitPackets : Prop :=
  ∀ (s : State) (cmd : BitVec 7) (cid : Cid) (payload : Octets),
    (7609 < payload.length → exec (.emit cmd cid payload) s = .next (s.answer (.err .emitTooLong))) ∧
    (payload.length ≤ 7609 → ∃ ps : List Octets,
      exec (.emit cmd cid payload) s = .next (s.answer (.ok (.packets ps))) ∧
      ps.length = (if payload.length ≤ 57 then 1 else 1 + (payload.length - 57 + 58) / 59) ∧
      (∀ p ∈ ps, p.length = 64) ∧
      ps[0]? = some ([cid.o0, cid.o1, cid.o2, cid.o3, BitVec.ofNat 8 (128 + cmd.toNat),
        BitVec.ofNat 8 (payload.length / 256), BitVec.ofNat 8 payload.length] ++ payload.take 57 ++
        List.replicate (57 - payload.length) 0) ∧
      ∀ j, j + 1 < ps.length → ps[j + 1]? = some ([cid.o0, cid.o1, cid.o2, cid.o3, BitVec.ofNat 8 j] ++
        (payload.drop (57 + 59 * j)).take 59 ++ List.replicate (59 - (payload.length - (57 + 59 * j))) 0))

/-- The splitter inverts the framer: the packets of EMIT, presented to an idle framer within 250 ms of the first, end
in progress but for the last, which returns the message; an INIT on an allocated channel is answered instead, or is
too short; a message of any other command on the broadcast channel is rejected. INIT on the broadcast channel is the
subject of InitOnBroadcastAllocates and ContinuationCompletes (R250; the commands it holds for are the spec's decision
D40, the short INIT D23, log 12). -/
def Obligations.SplitterInvertsFramer : Prop :=
  ∀ (s : State) (cmd : BitVec 7) (cid : Cid) (payload : Octets) (times : List Int), s.framer.st = .idle →
    payload.length ≤ 7609 → times.length = (emitPackets cmd cid payload).length →
    (∀ x ∈ times, ∀ x0, times[0]? = some x0 → x - x0 ≤ 250) →
    let ends := fun m : Message => ∃ t,
      feedPackets (times.zip (emitPackets cmd cid payload)) s = .next t ∧ t.framer = s.framer ∧
      t.results = s.results ++ List.replicate (times.length - 1) (.ok (.handled .inProgress)) ++
        [.ok (.handled (.complete m))]
    (cid ≠ ⟨0xFF, 0xFF, 0xFF, 0xFF⟩ → cid ∈ s.framer.channels →
      (cmd ≠ 0x06 → ends ⟨cid, cmd, payload⟩) ∧
      (cmd = 0x06 → 8 ≤ payload.length → ends ⟨cid, 0x06, payload.take 8 ++ [cid.o0, cid.o1, cid.o2, cid.o3, 0x02,
        s.framer.config.vmaj, s.framer.config.vmin, s.framer.config.build, 0x0D]⟩) ∧
      (cmd = 0x06 → payload.length < 8 → ends ⟨cid, 0x3F, [0x03]⟩)) ∧
    (cid = ⟨0xFF, 0xFF, 0xFF, 0xFF⟩ → cmd ≠ 0x06 → ends ⟨cid, 0x3F, [0x0B]⟩)

/-- IS_BROADCAST answers whether the cid is the broadcast channel, IS_VALID whether it is in the allocated set (R248, R249;
the reading of IS_VALID is the spec's decision D28, log 12). -/
def Obligations.ChannelPredicates : Prop :=
  ∀ (s : State) (cid : Cid),
    exec (.isBroadcast cid) s = .next (s.answer (.ok (.flag
      (cid.o0 == 0xFF && cid.o1 == 0xFF && cid.o2 == 0xFF && cid.o3 == 0xFF)))) ∧
    exec (.isValid cid) s = .next (s.answer (.ok (.flag (decide (cid ∈ s.framer.channels)))))

/-- RESET: a fresh instance, idle and without channels, of the same configuration; and the reset values (R300, R34;
RESET is the spec's decision D35, log 12). -/
def Obligations.ResetStartsAFreshInstance : Prop :=
  (∀ s : State, exec .reset s = .next
    { s with
      framer := ⟨.idle, [], s.framer.config⟩
      results := s.results ++ [.ok .nothing] }) ∧
  State.reset.framer = ⟨.idle, [], ⟨0xCA, 0xFE, 0x01, none⟩⟩ ∧ State.reset.codec = ⟨none, .numeric, .validate⟩

/-- An operation code outside 0..7 names no operation: it is refused and has no step (R99; the codes are the spec's
decision D34, log 12). -/
def Obligations.UnassignedOperationsRefused : Prop :=
  (∀ (s : State) (code : BitVec 3), exec (.hostOpRefused code) s = .refused (.operationUnassigned code)) ∧
  ∀ (op : Byte) (rest : Octets), 8 ≤ op.toNat → op.toNat ≤ 15 →
    decodeWire (.plain .hostOp (op :: rest)) = .ok (.hostOpRefused (op.setWidth 3))
end

