-- ==== Sys2Proof/Laws/State.lean ====
section
/-! SUPPORT. One lemma for each field of the state under each update, true by rfl, so that no proof unfolds a record
update. -/

namespace Sys2Proof.Machine

variable (s : State)

/-! ## answer -/

@[simp] theorem State.answer_inst (r : Result) : (s.answer r).inst = s.inst := rfl
@[simp] theorem State.answer_parked (r : Result) : (s.answer r).parked = s.parked := rfl
@[simp] theorem State.answer_codec (r : Result) : (s.answer r).codec = s.codec := rfl
@[simp] theorem State.answer_clock (r : Result) : (s.answer r).clock = s.clock := rfl
@[simp] theorem State.answer_rng (r : Result) : (s.answer r).rng = s.rng := rfl
@[simp] theorem State.answer_clockSamples (r : Result) : (s.answer r).clockSamples = s.clockSamples := rfl
@[simp] theorem State.answer_rngDraws (r : Result) : (s.answer r).rngDraws = s.rngDraws := rfl
@[simp] theorem State.answer_pending (r : Result) : (s.answer r).pending = s.pending := rfl
@[simp] theorem State.answer_results (r : Result) : (s.answer r).results = s.results ++ [r] := rfl
@[simp] theorem State.answer_st (r : Result) : (s.answer r).framer.st = s.framer.st := rfl
@[simp] theorem State.answer_channels (r : Result) : (s.answer r).framer.channels = s.framer.channels := rfl
@[simp] theorem State.answer_config (r : Result) : (s.answer r).framer.config = s.framer.config := rfl

/-! ## setSt -/

@[simp] theorem State.setSt_inst (st : FramerState) : (s.setSt st).inst = s.inst := rfl
@[simp] theorem State.setSt_parked (st : FramerState) : (s.setSt st).parked = s.parked := rfl
@[simp] theorem State.setSt_codec (st : FramerState) : (s.setSt st).codec = s.codec := rfl
@[simp] theorem State.setSt_clock (st : FramerState) : (s.setSt st).clock = s.clock := rfl
@[simp] theorem State.setSt_rng (st : FramerState) : (s.setSt st).rng = s.rng := rfl
@[simp] theorem State.setSt_clockSamples (st : FramerState) : (s.setSt st).clockSamples = s.clockSamples := rfl
@[simp] theorem State.setSt_rngDraws (st : FramerState) : (s.setSt st).rngDraws = s.rngDraws := rfl
@[simp] theorem State.setSt_pending (st : FramerState) : (s.setSt st).pending = s.pending := rfl
@[simp] theorem State.setSt_results (st : FramerState) : (s.setSt st).results = s.results := rfl
@[simp] theorem State.setSt_st (st : FramerState) : (s.setSt st).framer.st = st := rfl
@[simp] theorem State.setSt_channels (st : FramerState) : (s.setSt st).framer.channels = s.framer.channels := rfl
@[simp] theorem State.setSt_config (st : FramerState) : (s.setSt st).framer.config = s.framer.config := rfl

/-! ## sampleClock -/

@[simp] theorem State.sampleClock_inst : (s.sampleClock).inst = s.inst := rfl
@[simp] theorem State.sampleClock_parked : (s.sampleClock).parked = s.parked := rfl
@[simp] theorem State.sampleClock_codec : (s.sampleClock).codec = s.codec := rfl
@[simp] theorem State.sampleClock_clock : (s.sampleClock).clock = s.clock := rfl
@[simp] theorem State.sampleClock_rng : (s.sampleClock).rng = s.rng := rfl
@[simp] theorem State.sampleClock_clockSamples : (s.sampleClock).clockSamples = s.clockSamples + 1 := rfl
@[simp] theorem State.sampleClock_rngDraws : (s.sampleClock).rngDraws = s.rngDraws := rfl
@[simp] theorem State.sampleClock_pending : (s.sampleClock).pending = s.pending := rfl
@[simp] theorem State.sampleClock_results : (s.sampleClock).results = s.results := rfl
@[simp] theorem State.sampleClock_st : (s.sampleClock).framer.st = s.framer.st := rfl
@[simp] theorem State.sampleClock_channels : (s.sampleClock).framer.channels = s.framer.channels := rfl
@[simp] theorem State.sampleClock_config : (s.sampleClock).framer.config = s.framer.config := rfl

/-! ## countDraw -/

@[simp] theorem State.countDraw_inst : (s.countDraw).inst = s.inst := rfl
@[simp] theorem State.countDraw_parked : (s.countDraw).parked = s.parked := rfl
@[simp] theorem State.countDraw_codec : (s.countDraw).codec = s.codec := rfl
@[simp] theorem State.countDraw_clock : (s.countDraw).clock = s.clock := rfl
@[simp] theorem State.countDraw_rng : (s.countDraw).rng = s.rng := rfl
@[simp] theorem State.countDraw_clockSamples : (s.countDraw).clockSamples = s.clockSamples := rfl
@[simp] theorem State.countDraw_rngDraws : (s.countDraw).rngDraws = s.rngDraws + 1 := rfl
@[simp] theorem State.countDraw_pending : (s.countDraw).pending = s.pending := rfl
@[simp] theorem State.countDraw_results : (s.countDraw).results = s.results := rfl
@[simp] theorem State.countDraw_st : (s.countDraw).framer.st = s.framer.st := rfl
@[simp] theorem State.countDraw_channels : (s.countDraw).framer.channels = s.framer.channels := rfl
@[simp] theorem State.countDraw_config : (s.countDraw).framer.config = s.framer.config := rfl

/-! ## addChannel -/

@[simp] theorem State.addChannel_inst (c : Cid) : (s.addChannel c).inst = s.inst := rfl
@[simp] theorem State.addChannel_parked (c : Cid) : (s.addChannel c).parked = s.parked := rfl
@[simp] theorem State.addChannel_codec (c : Cid) : (s.addChannel c).codec = s.codec := rfl
@[simp] theorem State.addChannel_clock (c : Cid) : (s.addChannel c).clock = s.clock := rfl
@[simp] theorem State.addChannel_rng (c : Cid) : (s.addChannel c).rng = s.rng := rfl
@[simp] theorem State.addChannel_clockSamples (c : Cid) : (s.addChannel c).clockSamples = s.clockSamples := rfl
@[simp] theorem State.addChannel_rngDraws (c : Cid) : (s.addChannel c).rngDraws = s.rngDraws := rfl
@[simp] theorem State.addChannel_pending (c : Cid) : (s.addChannel c).pending = s.pending := rfl
@[simp] theorem State.addChannel_results (c : Cid) : (s.addChannel c).results = s.results := rfl
@[simp] theorem State.addChannel_st (c : Cid) : (s.addChannel c).framer.st = s.framer.st := rfl
@[simp] theorem State.addChannel_channels (c : Cid) : (s.addChannel c).framer.channels = insertChannel c s.framer.channels := rfl
@[simp] theorem State.addChannel_config (c : Cid) : (s.addChannel c).framer.config = s.framer.config := rfl

/-! ## freshFramer -/

@[simp] theorem State.freshFramer_inst : (s.freshFramer).inst = s.inst := rfl
@[simp] theorem State.freshFramer_parked : (s.freshFramer).parked = s.parked := rfl
@[simp] theorem State.freshFramer_codec : (s.freshFramer).codec = s.codec := rfl
@[simp] theorem State.freshFramer_clock : (s.freshFramer).clock = s.clock := rfl
@[simp] theorem State.freshFramer_rng : (s.freshFramer).rng = s.rng := rfl
@[simp] theorem State.freshFramer_clockSamples : (s.freshFramer).clockSamples = s.clockSamples := rfl
@[simp] theorem State.freshFramer_rngDraws : (s.freshFramer).rngDraws = s.rngDraws := rfl
@[simp] theorem State.freshFramer_pending : (s.freshFramer).pending = s.pending := rfl
@[simp] theorem State.freshFramer_results : (s.freshFramer).results = s.results := rfl
@[simp] theorem State.freshFramer_st : (s.freshFramer).framer.st = .idle := rfl
@[simp] theorem State.freshFramer_channels : (s.freshFramer).framer.channels = [] := rfl
@[simp] theorem State.freshFramer_config : (s.freshFramer).framer.config = s.framer.config := rfl

/-! ## present -/

@[simp] theorem State.present_inst (r : Request) (rest : List Request) : (s.present r rest).inst = s.inst := rfl
@[simp] theorem State.present_parked (r : Request) (rest : List Request) : (s.present r rest).parked = s.parked := rfl
@[simp] theorem State.present_codec (r : Request) (rest : List Request) : (s.present r rest).codec = s.codec := rfl
@[simp] theorem State.present_clock (r : Request) (rest : List Request) : (s.present r rest).clock = r.now := rfl
@[simp] theorem State.present_rng (r : Request) (rest : List Request) : (s.present r rest).rng = r.rng := rfl
@[simp] theorem State.present_clockSamples (r : Request) (rest : List Request) : (s.present r rest).clockSamples = s.clockSamples := rfl
@[simp] theorem State.present_rngDraws (r : Request) (rest : List Request) : (s.present r rest).rngDraws = s.rngDraws := rfl
@[simp] theorem State.present_pending (r : Request) (rest : List Request) : (s.present r rest).pending = rest := rfl
@[simp] theorem State.present_results (r : Request) (rest : List Request) : (s.present r rest).results = s.results := rfl
@[simp] theorem State.present_st (r : Request) (rest : List Request) : (s.present r rest).framer.st = s.framer.st := rfl
@[simp] theorem State.present_channels (r : Request) (rest : List Request) : (s.present r rest).framer.channels = s.framer.channels := rfl
@[simp] theorem State.present_config (r : Request) (rest : List Request) : (s.present r rest).framer.config = s.framer.config := rfl

/-! ## handledTo -/

@[simp] theorem State.handledTo_inst (st : FramerState) (r : FramerResult) : (s.handledTo st r).inst = s.inst := rfl
@[simp] theorem State.handledTo_parked (st : FramerState) (r : FramerResult) : (s.handledTo st r).parked = s.parked := rfl
@[simp] theorem State.handledTo_codec (st : FramerState) (r : FramerResult) : (s.handledTo st r).codec = s.codec := rfl
@[simp] theorem State.handledTo_clock (st : FramerState) (r : FramerResult) : (s.handledTo st r).clock = s.clock := rfl
@[simp] theorem State.handledTo_rng (st : FramerState) (r : FramerResult) : (s.handledTo st r).rng = s.rng := rfl
@[simp] theorem State.handledTo_clockSamples (st : FramerState) (r : FramerResult) : (s.handledTo st r).clockSamples = s.clockSamples + 1 := rfl
@[simp] theorem State.handledTo_rngDraws (st : FramerState) (r : FramerResult) : (s.handledTo st r).rngDraws = s.rngDraws := rfl
@[simp] theorem State.handledTo_pending (st : FramerState) (r : FramerResult) : (s.handledTo st r).pending = s.pending := rfl
@[simp] theorem State.handledTo_results (st : FramerState) (r : FramerResult) : (s.handledTo st r).results = s.results ++ [.ok (.handled r)] := rfl
@[simp] theorem State.handledTo_st (st : FramerState) (r : FramerResult) : (s.handledTo st r).framer.st = st := rfl
@[simp] theorem State.handledTo_channels (st : FramerState) (r : FramerResult) : (s.handledTo st r).framer.channels = s.framer.channels := rfl
@[simp] theorem State.handledTo_config (st : FramerState) (r : FramerResult) : (s.handledTo st r).framer.config = s.framer.config := rfl

/-! ## Shapes of updates -/

/-- Setting the record to what it is changes nothing. -/
theorem State.setSt_self {st : FramerState} (h : s.framer.st = st) : s.setSt st = s := by
  subst h; rfl

/-- The last record set is the one kept. -/
@[simp] theorem State.setSt_setSt (x y : FramerState) : (s.setSt x).setSt y = s.setSt y := rfl

/-- A HANDLE that only sets the record and answers. -/
theorem State.handledTo_eq (st : FramerState) (r : FramerResult) :
    (s.sampleClock.setSt st).answer (.ok (.handled r)) = s.handledTo st r := rfl

/-- An answer is read off the results. -/
theorem State.answer_inj {r r' : Result} (h : s.answer r = s.answer r') : r = r' := by
  have := congrArg State.results h
  simpa using this

end Sys2Proof.Machine
end

