-- ==== Sys2Proof/Laws/Channels.lean ====
section
/-! SUPPORT. The channel set and the instances: their canonical forms are kept by the operations that write them
(spec/10_state.md R30, 60_exceptions.md R287). -/

namespace Sys2Proof.Machine

/-! ## The channel set -/

/-- Nothing but the new member joins the set. -/
theorem mem_of_mem_insertChannel {c x : Cid} : ∀ {cs : List Cid}, x ∈ insertChannel c cs → x = c ∨ x ∈ cs := by
  intro cs
  induction cs with
  | nil => simp [insertChannel]
  | cons y ys ih =>
    unfold insertChannel
    split
    · exact .inr
    · split
      · simp
      · simp only [List.mem_cons]
        rintro (h | h)
        · exact .inr (.inl h)
        · exact (ih h).imp id .inr

/-- No member leaves the set. -/
theorem mem_insertChannel_of_mem {c x : Cid} : ∀ {cs : List Cid}, x ∈ cs → x ∈ insertChannel c cs := by
  intro cs
  induction cs with
  | nil => simp
  | cons y ys ih =>
    intro h
    unfold insertChannel
    split
    · exact h
    · split
      · exact List.mem_cons_of_mem _ h
      · rcases List.mem_cons.1 h with h | h
        · exact List.mem_cons.2 (.inl h)
        · exact List.mem_cons_of_mem _ (ih h)

/-- Two octets and a number read from its big-endian form: the low octet and the rest are determined. -/
theorem octet_split {m n a b : Nat} (ha : a < 256) (hb : b < 256) (h : m * 256 + a = n * 256 + b) :
    m = n ∧ a = b := by omega

/-- The key of the canonical order tells cids apart. -/
theorem cidKey_inj {a b : Cid} (h : cidKey a = cidKey b) : a = b := by
  obtain ⟨a0, a1, a2, a3⟩ := a
  obtain ⟨b0, b1, b2, b3⟩ := b
  simp only [cidKey, uintBe, cidOctets, List.foldl] at h
  obtain ⟨h, h3⟩ := octet_split a3.isLt b3.isLt h
  obtain ⟨h, h2⟩ := octet_split a2.isLt b2.isLt h
  obtain ⟨h, h1⟩ := octet_split a1.isLt b1.isLt h
  obtain ⟨-, h0⟩ := octet_split a0.isLt b0.isLt h
  rw [BitVec.eq_of_toNat_eq h0, BitVec.eq_of_toNat_eq h1, BitVec.eq_of_toNat_eq h2, BitVec.eq_of_toNat_eq h3]

/-- The canonical form is kept (log 13). -/
theorem channelsWf_insertChannel {c : Cid} : ∀ {cs : List Cid}, ChannelsWf cs → ChannelsWf (insertChannel c cs) := by
  intro cs
  induction cs with
  | nil => intro _; simp [insertChannel]
  | cons y ys ih =>
    intro h
    unfold insertChannel
    split
    · exact h
    · rename_i hne
      split
      · rename_i hlt
        refine List.pairwise_cons.2 ⟨fun z hz => ?_, h⟩
        rcases List.mem_cons.1 hz with hz | hz
        · exact hz ▸ hlt
        · exact Nat.lt_trans hlt ((List.pairwise_cons.1 h).1 z hz)
      · rename_i hge
        refine List.pairwise_cons.2 ⟨fun z hz => ?_, ih (List.pairwise_cons.1 h).2⟩
        rcases mem_of_mem_insertChannel hz with hz | hz
        · subst hz
          rcases Nat.lt_or_eq_of_le (Nat.le_of_not_lt hge) with hlt | heq
          · exact hlt
          · exact absurd (cidKey_inj heq.symm) hne
        · exact (List.pairwise_cons.1 h).1 z hz

/-- At most one member joins (R310). -/
theorem length_insertChannel_le {c : Cid} : ∀ {cs : List Cid}, (insertChannel c cs).length ≤ cs.length + 1 := by
  intro cs
  induction cs with
  | nil => simp [insertChannel]
  | cons y ys ih =>
    unfold insertChannel
    split
    · simp
    · split
      · simp
      · simpa using ih

/-- Membership as the machine tests it. -/
theorem hasChannel_iff {cs : List Cid} {c : Cid} : hasChannel cs c = true ↔ c ∈ cs := by
  simp [hasChannel]

/-! ## The instances -/

/-- What a parked list holds after one more is parked. -/
theorem mem_parkInstance {n : Nat} {f : Framer} {x : Nat × Framer} :
    ∀ {l : List (Nat × Framer)}, x ∈ parkInstance n f l ↔ x = (n, f) ∨ x ∈ l := by
  intro l
  induction l with
  | nil => simp [parkInstance]
  | cons y ys ih =>
    unfold parkInstance
    split
    · simp
    · simp only [List.mem_cons, ih]
      tauto

/-- Parking an instance whose number is not there keeps the rising order of the numbers. -/
theorem parkInstance_order {n : Nat} {f : Framer} : ∀ {l : List (Nat × Framer)}, (∀ x ∈ l, x.1 ≠ n) →
    l.Pairwise (fun x y => x.1 < y.1) → (parkInstance n f l).Pairwise (fun x y => x.1 < y.1) := by
  intro l
  induction l with
  | nil => intro _ _; simp [parkInstance]
  | cons y ys ih =>
    intro hn h
    unfold parkInstance
    split
    · rename_i hlt
      refine List.pairwise_cons.2 ⟨fun z hz => ?_, h⟩
      rcases List.mem_cons.1 hz with hz | hz
      · exact hz ▸ hlt
      · exact Nat.lt_trans hlt ((List.pairwise_cons.1 h).1 z hz)
    · rename_i hge
      refine List.pairwise_cons.2 ⟨fun z hz => ?_, ih (fun x hx => hn x (List.mem_cons_of_mem _ hx))
        (List.pairwise_cons.1 h).2⟩
      rcases mem_parkInstance.1 hz with hz | hz
      · subst hz
        exact Nat.lt_of_le_of_ne (Nat.le_of_not_lt hge) (hn y (List.mem_cons_self ..))
      · exact (List.pairwise_cons.1 h).1 z hz

/-- What selecting an instance can do: nothing, where it is the addressed one already; or the addressed record is parked
and the selected one taken out. -/
theorem selectInstance_cases {n : Nat} {s t : State} (h : selectInstance n s = some t) :
    (n = s.inst ∧ t = s) ∨
    (n ≠ s.inst ∧ ∃ f, (n, f) ∈ s.parked ∧ s.parked.lookup n = some f ∧
      t = { s with
        inst := n, framer := f
        parked := parkInstance s.inst s.framer (s.parked.filter fun x => x.1 != n) }) := by
  unfold selectInstance at h
  split at h
  · exact .inl ⟨by assumption, by simpa using h.symm⟩
  · obtain ⟨f, hf, ht⟩ := Option.map_eq_some_iff.1 h
    refine .inr ⟨by assumption, f, ?_, hf, ht.symm⟩
    clear h ht
    generalize s.parked = l at hf
    induction l with
    | nil => simp at hf
    | cons y ys ih =>
      rw [List.lookup_cons] at hf
      split at hf
      · rename_i heq
        have : n = y.1 := by simpa using heq
        have : f = y.2 := by simpa using hf.symm
        subst_vars
        exact List.mem_cons_self ..
      · exact List.mem_cons_of_mem _ (ih hf)

/-- Selecting an instance keeps the invariant. -/
theorem selectInstance_inv {n : Nat} {s t : State} (hs : s.Inv) (h : selectInstance n s = some t) : t.Inv := by
  obtain ⟨-, rfl⟩ | ⟨hn, f, hf, -, rfl⟩ := selectInstance_cases h
  · exact hs
  · refine ⟨(hs.parked _ hf).2, fun x hx => ?_, ?_⟩
    · rcases mem_parkInstance.1 hx with rfl | hx
      · exact ⟨fun e => hn e.symm, hs.framer⟩
      · simp only [List.mem_filter, bne_iff_ne] at hx
        exact ⟨hx.2, (hs.parked _ hx.1).2⟩
    · exact parkInstance_order (fun x hx => (hs.parked _ (List.mem_filter.1 hx).1).1) (hs.order.filter _)

end Sys2Proof.Machine
end

