-- ==== Sys2Proof/Laws/Codec.lean ====
section
/-! SUPPORT. Octet strings and the item reader: lengths, bounds of what a read returns, and the reader's own equation
without its bound on the nesting; heads, depths and the lists inside values as the rules state them
(spec/00_scope.md R8, R9, 10_state.md R24, R26, 41_cbor_decode.md R151-R161). -/

namespace Sys2Proof.Machine

/-! ## Octet strings -/

@[simp] theorem length_zeros (n : Nat) : (zeros n).length = n := List.length_replicate

@[simp] theorem length_cidOctets (c : Cid) : (cidOctets c).length = 4 := rfl

@[simp] theorem length_beOctets (k v : Nat) : (beOctets k v).length = k := by
  induction k with
  | zero => rfl
  | succ k ih => simp [beOctets, ih]

/-- A slice within the string has the length of its bounds. -/
theorem length_slice {b : Octets} {i j : Nat} (h : j ≤ b.length) : (slice b i j).length = j - i := by
  simp only [slice, List.length_take, List.length_drop]
  omega

/-- The fold behind `uint_be`, from any number on. -/
theorem foldl_uintBe (s : Octets) (n : Nat) :
    s.foldl (fun acc o => acc * 256 + o.toNat) n = n * 256 ^ s.length + uintBe s := by
  induction s generalizing n with
  | nil => simp [uintBe]
  | cons o s ih =>
    have h := ih o.toNat
    simp only [uintBe, List.foldl_cons, List.length_cons, Nat.zero_mul, Nat.zero_add] at h ⊢
    rw [ih, h]
    simp only [uintBe]
    ring

@[simp] theorem uintBe_nil : uintBe [] = 0 := rfl

theorem uintBe_cons (o : Byte) (s : Octets) : uintBe (o :: s) = o.toNat * 256 ^ s.length + uintBe s := by
  have h := foldl_uintBe s o.toNat
  simpa [uintBe] using h

/-- k octets hold a number below 256^k. -/
theorem uintBe_lt (s : Octets) : uintBe s < 256 ^ s.length := by
  induction s with
  | nil => simp
  | cons o s ih =>
    have ho : o.toNat + 1 ≤ 256 := o.isLt
    rw [uintBe_cons, List.length_cons, pow_succ]
    calc o.toNat * 256 ^ s.length + uintBe s
        < o.toNat * 256 ^ s.length + 256 ^ s.length := by omega
      _ = (o.toNat + 1) * 256 ^ s.length := by ring
      _ ≤ 256 * 256 ^ s.length := Nat.mul_le_mul_right _ ho
      _ = 256 ^ s.length * 256 := Nat.mul_comm ..

/-- `uint_be(be_k(v))` is v for every v that k octets hold (R9). -/
theorem uintBe_beOctets {k v : Nat} (h : v < 256 ^ k) : uintBe (beOctets k v) = v := by
  have key : ∀ k, uintBe (beOctets k v) = v % 256 ^ k := by
    intro k
    induction k with
    | zero => simp [beOctets, Nat.mod_one]
    | succ k ih =>
      rw [beOctets, uintBe_cons, ih, length_beOctets, BitVec.toNat_ofNat, show 2 ^ 8 = 256 from rfl, pow_succ,
        Nat.mod_mul, Nat.mul_comm, Nat.add_comm]
  rw [key, Nat.mod_eq_of_lt h]

/-! ## What a read returns -/

/-- An argument ends past its initial octet and inside the input (R151, R167). -/
theorem argument_bounds {b : Octets} {p ai arg q : Nat} (hp : p < b.length) (h : argument b p ai = .ok (arg, q)) :
    p < q ∧ q ≤ b.length := by
  unfold argument at h
  split at h
  · cases h
    omega
  · simp only at h
    split at h
    · cases h
    · cases h
      have := Nat.two_pow_pos (ai - 24)
      omega

/-- A reader of items that only moves on, and stays in the input. -/
def Advances (rd : Nat → Read (LogicalValue × Nat)) (len : Nat) : Prop :=
  ∀ r v q, rd r = .ok (v, q) → r < q ∧ q ≤ len

theorem readElements_bounds {rd : Nat → Read (LogicalValue × Nat)} {len : Nat} (hrd : Advances rd len) :
    ∀ {n r : Nat} {us : LogicalValues} {q : Nat}, r ≤ len → readElements rd n r = .ok (us, q) →
      r ≤ q ∧ q ≤ len ∧ us.length = n := by
  intro n
  induction n with
  | zero =>
    intro r us q hr h
    cases h
    exact ⟨Nat.le_refl _, hr, rfl⟩
  | succ n ih =>
    intro r us q hr h
    unfold readElements at h
    split at h
    · cases h
    · rename_i u r1 h1
      obtain ⟨h2, h3⟩ := hrd _ _ _ h1
      split at h
      · cases h
      · rename_i us' r2 h4
        cases h
        obtain ⟨h5, h6, h7⟩ := ih h3 h4
        exact ⟨by omega, h6, by simp [LogicalValues.length, h7]⟩

theorem readPairs_bounds {rd : Nat → Read (LogicalValue × Nat)} {len : Nat} (hrd : Advances rd len) :
    ∀ {n r : Nat} {seen : List LogicalValue} {ps : LogicalPairs} {q : Nat}, r ≤ len →
      readPairs rd n seen r = .ok (ps, q) → r ≤ q ∧ q ≤ len ∧ ps.length = n := by
  intro n
  induction n with
  | zero =>
    intro r seen ps q hr h
    cases h
    exact ⟨Nat.le_refl _, hr, rfl⟩
  | succ n ih =>
    intro r seen ps q hr h
    unfold readPairs at h
    split at h
    · cases h
    · rename_i k r1 h1
      obtain ⟨h2, h3⟩ := hrd _ _ _ h1
      split at h
      · cases h
      · split at h
        · cases h
        · rename_i u r2 h4
          obtain ⟨h5, h6⟩ := hrd _ _ _ h4
          split at h
          · cases h
          · rename_i ps' r3 h7
            cases h
            obtain ⟨h8, h9, h10⟩ := ih h6 h7
            exact ⟨by omega, h9, by simp [LogicalPairs.length, h10]⟩

/-- Content ends inside the input, at or past the end of the head. -/
theorem readContent_bounds {cfg : CodecConfig} {rd : Nat → Read (LogicalValue × Nat)} {b : Octets}
    {p mt arg q : Nat} {v : LogicalValue} {r : Nat} (hrd : Advances rd b.length) (hq : q ≤ b.length)
    (h : readContent cfg rd b p mt arg q = .ok (v, r)) : q ≤ r ∧ r ≤ b.length := by
  unfold readContent at h
  split at h
  · cases h
    exact ⟨Nat.le_refl _, hq⟩
  · cases h
    exact ⟨Nat.le_refl _, hq⟩
  · unfold readBytes at h
    split at h
    · cases h
    · cases h
      omega
  · unfold readText at h
    split at h
    · cases h
    · split at h
      · cases h
        omega
      · cases h
  · unfold readArray at h
    split at h
    · cases h
    · rename_i us r' he
      cases h
      exact ⟨(readElements_bounds hrd hq he).1, (readElements_bounds hrd hq he).2.1⟩
  · unfold readMap at h
    split at h
    · cases h
    · rename_i ps r' he
      cases h
      exact ⟨(readPairs_bounds hrd hq he).1, (readPairs_bounds hrd hq he).2.1⟩

/-- An item takes at least its initial octet, and ends inside the input. -/
theorem item_bounds {cfg : CodecConfig} {b : Octets} : ∀ {fuel d : Nat}, Advances (item cfg b fuel · d) b.length := by
  intro fuel
  induction fuel with
  | zero =>
    intro d r v q h
    cases h
  | succ fuel ih =>
    intro d p v q h
    simp only [item] at h
    split at h
    · cases h
    · split at h
      · cases h
      · rename_i ib hib
        have hp : p < b.length := (List.getElem?_eq_some_iff.1 hib).1
        unfold readItem at h
        split at h
        · cases h
        · split at h
          · cases h
            omega
          · split at h
            · cases h
            · rename_i arg q' ha
              obtain ⟨h1, h2⟩ := argument_bounds hp ha
              obtain ⟨h3, h4⟩ := readContent_bounds (ih (d := d + 1)) h2 h
              omega

/-! ## Heads and depths as the rules state them -/

/-- The two fields of an initial octet make it up (30_encoding.md R70). -/
theorem toNat_initialOctet (ib : Byte) : ib.toNat = 32 * (majorType ib).toNat + (additionalInfo ib).toNat := by
  revert ib
  decide

/-- The refused initial octets, by their ranges (R153, 30_encoding.md R97). -/
theorem initialInvalid_iff (ib : Byte) : initialInvalid ib = true ↔
    (ib.toNat < 0xC0 ∧ 28 ≤ ib.toNat % 32) ∨ (0xC0 ≤ ib.toNat ∧ ib ≠ 0xF4 ∧ ib ≠ 0xF5) := by
  revert ib
  decide

theorem depthOk_iff {cfg : CodecConfig} {d : Nat} : DepthOk cfg d ↔ tooDeep cfg d = false := by
  unfold DepthOk tooDeep
  split <;> simp_all

/-- `HeadAt` is what the initial-octet check and the argument reader accept (R151, R153). -/
theorem headAt_iff {b : Octets} {p mt arg q : Nat} (hm : mt ≤ 5) : HeadAt b p mt arg q ↔
    ∃ ib, b[p]? = some ib ∧ initialInvalid ib = false ∧ (majorType ib).toNat = mt ∧
      argument b p (additionalInfo ib).toNat = .ok (arg, q) := by
  constructor
  · rintro ⟨ib, hib, h⟩
    have hs := toNat_initialOctet ib
    have ha := (additionalInfo ib).isLt
    have hv : ib.toNat < 0xC0 → ib.toNat % 32 < 28 → initialInvalid ib = false := by
      intro h1 h2
      rw [Bool.eq_false_iff, ne_eq, initialInvalid_iff]
      omega
    rcases h with ⟨ai, h1, h2, rfl, rfl⟩ | ⟨j, h1, h2, h3, h4, h5⟩
    · refine ⟨ib, hib, hv (by omega) (by omega), by omega, ?_⟩
      rw [show (additionalInfo ib).toNat = arg from by omega]
      simp [argument, h1]
    · refine ⟨ib, hib, hv (by omega) (by omega), by omega, ?_⟩
      rw [show (additionalInfo ib).toNat = 24 + j from by omega]
      simp only [argument, show ¬24 + j ≤ 23 from by omega, if_false, Nat.add_sub_cancel_left, ← h3,
        Nat.not_lt.2 h4, ← h5]
  · rintro ⟨ib, hib, hv, hmt, h⟩
    have hs := toNat_initialOctet ib
    rw [Bool.eq_false_iff, ne_eq, initialInvalid_iff] at hv
    unfold argument at h
    split at h
    · cases h
      exact ⟨ib, hib, .inl ⟨_, by assumption, by omega, rfl, rfl⟩⟩
    · simp only at h
      split at h
      · cases h
      · cases h
        exact ⟨ib, hib, .inr ⟨(additionalInfo ib).toNat - 24, by omega, by omega, rfl, by omega, rfl⟩⟩

/-! ## The bound on the nesting is never met (log 14) -/

theorem readElements_congr {rd rd' : Nat → Read (LogicalValue × Nat)} {len : Nat} (hrd : Advances rd len) :
    ∀ {n r : Nat}, (∀ r', r ≤ r' → rd r' = rd' r') → readElements rd n r = readElements rd' n r := by
  intro n
  induction n with
  | zero =>
    intro r _
    rfl
  | succ n ih =>
    intro r h
    simp only [readElements]
    rw [← h r (Nat.le_refl _)]
    cases h1 : rd r with
    | error e => rfl
    | ok x =>
      obtain ⟨u, r1⟩ := x
      have := (hrd _ _ _ h1).1
      simp only
      rw [ih fun r' hr' => h r' (by omega)]

theorem readPairs_congr {rd rd' : Nat → Read (LogicalValue × Nat)} {len : Nat} (hrd : Advances rd len) :
    ∀ {n r : Nat} {seen : List LogicalValue}, (∀ r', r ≤ r' → rd r' = rd' r') →
      readPairs rd n seen r = readPairs rd' n seen r := by
  intro n
  induction n with
  | zero =>
    intro r seen _
    rfl
  | succ n ih =>
    intro r seen h
    simp only [readPairs]
    rw [← h r (Nat.le_refl _)]
    cases h1 : rd r with
    | error e => rfl
    | ok x =>
      obtain ⟨k, r1⟩ := x
      have h2 := (hrd _ _ _ h1).1
      simp only
      split
      · rfl
      · rw [← h r1 (by omega)]
        cases h3 : rd r1 with
        | error e => rfl
        | ok y =>
          obtain ⟨u, r2⟩ := y
          have h4 := (hrd _ _ _ h3).1
          simp only
          rw [ih fun r' hr' => h r' (by omega)]

/-- An item depends on its reader of nested items only at the offsets past its initial octet. -/
theorem readItem_congr {cfg : CodecConfig} {rd rd' : Nat → Read (LogicalValue × Nat)} {b : Octets} {p : Nat}
    {ib : Byte} (hp : p < b.length) (hrd : Advances rd b.length) (h : ∀ r, p < r → rd r = rd' r) :
    readItem cfg rd b p ib = readItem cfg rd' b p ib := by
  unfold readItem
  split
  · rfl
  · split
    · rfl
    · cases ha : argument b p (additionalInfo ib).toNat with
      | error e => rfl
      | ok x =>
        obtain ⟨arg, q⟩ := x
        have hq := (argument_bounds hp ha).1
        simp only [readContent, readArray, readMap]
        rw [readElements_congr hrd fun r' hr' => h r' (by omega), readPairs_congr hrd fun r' hr' => h r' (by omega)]

/-- Two bounds on the nesting, both larger than the number of octets from p on, read the same. -/
theorem item_fuel {cfg : CodecConfig} {b : Octets} : ∀ {fuel fuel' p d : Nat}, b.length - p < fuel →
    b.length - p < fuel' → item cfg b fuel p d = item cfg b fuel' p d := by
  intro fuel
  induction fuel with
  | zero =>
    intro fuel' p d h _
    omega
  | succ fuel ih =>
    intro fuel' p d h h'
    obtain ⟨fuel', rfl⟩ : ∃ k, fuel' = k + 1 := ⟨fuel' - 1, by omega⟩
    simp only [item]
    split
    · rfl
    · cases hib : b[p]? with
      | none => rfl
      | some ib =>
        have hp : p < b.length := (List.getElem?_eq_some_iff.1 hib).1
        exact readItem_congr hp item_bounds fun r hr => ih (by omega) (by omega)

/-- `item(b, p, d)` as R151 writes it: its nested items are read by the same operation, one level deeper. -/
theorem item_eq (cfg : CodecConfig) (b : Octets) (p d : Nat) :
    item cfg b (b.length + 1) p d =
      if tooDeep cfg d then .error p
      else match b[p]? with
        | none => .error p
        | some ib => readItem cfg (fun r => item cfg b (b.length + 1) r (d + 1)) b p ib := by
  simp only [item]
  split
  · rfl
  · cases hib : b[p]? with
    | none => rfl
    | some ib =>
      have hp : p < b.length := (List.getElem?_eq_some_iff.1 hib).1
      refine readItem_congr hp (item_bounds (fuel := b.length)) fun r hr => ?_
      exact item_fuel (fuel := b.length) (fuel' := b.length + 1) (by omega) (by omega)

/-! ## ENCODE: the entries of a map -/

/-- Sorting the entries of a map loses and adds none (40_cbor_encode.md R116). -/
theorem insertEntry_perm (ord : NegKeyOrder) (e : Entry) : ∀ es, (insertEntry ord e es).Perm (e :: es)
  | [] => .refl _
  | x :: xs => by
    unfold insertEntry
    split
    · exact ((insertEntry_perm ord e xs).cons x).trans (.swap e x xs)
    · exact .refl _

theorem sortEntries_perm (ord : NegKeyOrder) : ∀ es, (sortEntries ord es).Perm es
  | [] => .refl _
  | e :: es => (insertEntry_perm ord e _).trans ((sortEntries_perm ord es).cons e)

end Sys2Proof.Machine

namespace Sys2Proof

/-! ## The lists inside values (10_state.md R24, R26) -/

@[simp] theorem LogicalValues.toList_ofList (l : List LogicalValue) : (LogicalValues.ofList l).toList = l := by
  induction l with
  | nil => rfl
  | cons v l ih => simp [LogicalValues.ofList, LogicalValues.toList, ih]

@[simp] theorem LogicalPairs.toList_ofList (l : List (LogicalValue × LogicalValue)) :
    (LogicalPairs.ofList l).toList = l := by
  induction l with
  | nil => rfl
  | cons p l ih => simp [LogicalPairs.ofList, LogicalPairs.toList, ih]

@[simp] theorem LogicalValues.ofList_toList : (vs : LogicalValues) → LogicalValues.ofList vs.toList = vs
  | .nil => rfl
  | .cons v vs => by simp [LogicalValues.toList, LogicalValues.ofList, LogicalValues.ofList_toList vs]

@[simp] theorem LogicalPairs.ofList_toList : (ps : LogicalPairs) → LogicalPairs.ofList ps.toList = ps
  | .nil => rfl
  | .cons k v ps => by simp [LogicalPairs.toList, LogicalPairs.ofList, LogicalPairs.ofList_toList ps]

@[simp] theorem LogicalValues.length_toList : (vs : LogicalValues) → vs.toList.length = vs.length
  | .nil => rfl
  | .cons v vs => by simp [LogicalValues.toList, LogicalValues.length, LogicalValues.length_toList vs]

@[simp] theorem LogicalPairs.length_toList : (ps : LogicalPairs) → ps.toList.length = ps.length
  | .nil => rfl
  | .cons k v ps => by simp [LogicalPairs.toList, LogicalPairs.length, LogicalPairs.length_toList ps]

theorem LogicalPairs.keys_eq : (ps : LogicalPairs) → ps.keys = ps.toList.map Prod.fst
  | .nil => rfl
  | .cons k v ps => by simp [LogicalPairs.toList, LogicalPairs.keys, LogicalPairs.keys_eq ps]

/-- Two keys are duplicates where an earlier one is `≈` to a later one (40_cbor_encode.md R126). -/
theorem hasDuplicateKey_iff (l : List LogicalValue) : hasDuplicateKey l = true ↔
    ∃ (i j : Nat) (a b : LogicalValue), i < j ∧ l[i]? = some a ∧ l[j]? = some b ∧ a.equiv b = true := by
  induction l with
  | nil => simp [hasDuplicateKey]
  | cons k l ih =>
    simp only [hasDuplicateKey, Bool.or_eq_true, ih, List.any_eq_true]
    constructor
    · rintro (⟨k', h1, h2⟩ | ⟨i, j, a, b, h1, h2, h3, h4⟩)
      · obtain ⟨j, hj⟩ := List.mem_iff_getElem?.1 h1
        exact ⟨0, j + 1, k, k', by omega, rfl, hj, h2⟩
      · exact ⟨i + 1, j + 1, a, b, by omega, h2, h3, h4⟩
    · rintro ⟨_ | i, _ | j, a, b, h1, h2, h3, h4⟩
      · omega
      · cases h2
        exact .inl ⟨b, List.mem_iff_getElem?.2 ⟨j, h3⟩, h4⟩
      · omega
      · exact .inr ⟨i, j, a, b, by omega, h2, h3, h4⟩

end Sys2Proof
end

