-- ==== Sys2Proof/Laws/Reassembly.lean ====
section
/-! SUPPORT. Everything a HANDLE can do, said once (spec/42_hid_reassembly.md R190-R207, R220-R226): the five ends of
the completion test, and the ends of a packet. -/

namespace Sys2Proof.Machine

/-! ## Small laws of the operations -/

@[simp] theorem errorCid_idle : errorCid .idle = broadcastCid := rfl

@[simp] theorem errorCid_assembling (a : Assembly) : errorCid (.assembling a) = a.cid := rfl

@[simp] theorem expectedSeq_none {a : Assembly} (h : a.seqLast = none) : expectedSeq a = 0 := by
  simp [expectedSeq, h]

@[simp] theorem expectedSeq_some {a : Assembly} {k : BitVec 7} (h : a.seqLast = some k) :
    expectedSeq a = k.toNat + 1 := by
  simp [expectedSeq, h]

/-- The timeout test does two things: it samples the clock, and it may reset the record (R191). -/
theorem applyTimeout_cases (s : State) :
    (s.MeetsIdle ∧ applyTimeout s = s.sampleClock.setSt .idle) ∨
    (∃ a, s.MeetsRecord a ∧ applyTimeout s = s.sampleClock) := by
  cases h : s.framer.st with
  | idle =>
    refine .inl ⟨fun a ha => by simp [h] at ha, ?_⟩
    obtain ⟨⟨st, cs, c⟩, i, p, k, cl, r, n, m, q, o⟩ := s
    simp only at h
    subst h
    rfl
  | assembling a =>
    by_cases ht : tTimeout < s.clock - a.beginTs
    · refine .inl ⟨fun a' ha => ?_, by simp [applyTimeout, timedOut, h, ht]⟩
      rw [h] at ha
      cases ha
      exact ht
    · exact .inr ⟨a, ⟨h, by simpa [tTimeout] using ht⟩, by simp [applyTimeout, timedOut, h, ht]⟩

/-! ## Completion -/

/-- The completion test of a record the state holds has five ends (R202, R204, R205, R220-R226). -/
theorem completeOrProgress_cases (a : Assembly) (s : State) :
    (a.received.length < a.bcnt.toNat ∧ completeOrProgress a s = (s, .inProgress)) ∨
    (a.bcnt.toNat ≤ a.received.length ∧
      ((∃ code, code ∈ [errInvalidChannel, errInvalidLen, errOther] ∧
          completeOrProgress a s = deliverError code s) ∨
       (a.cmd ≠ cmdInit ∧ a.cid ≠ broadcastCid ∧ a.cid ∈ s.framer.channels ∧
          completeOrProgress a s = deliverMessage a s) ∨
       (a.cmd = cmdInit ∧ 8 ≤ a.bcnt.toNat ∧ a.cid ≠ broadcastCid ∧ a.cid ∈ s.framer.channels ∧
          completeOrProgress a s = deliverInit a a.cid s) ∨
       (a.cmd = cmdInit ∧ 8 ≤ a.bcnt.toNat ∧ a.cid = broadcastCid ∧ channelsFull s.framer = false ∧
          completeOrProgress a s = deliverInit a s.rng (allocate s)))) := by
  by_cases hlen : a.received.length < a.bcnt.toNat
  · exact .inl ⟨hlen, by simp [completeOrProgress, hlen]⟩
  · refine .inr ⟨Nat.le_of_not_lt hlen, ?_⟩
    simp only [completeOrProgress, hlen, if_false]
    by_cases hok : completionAllowed s.framer.channels a.cmd a.cid = true
    · simp only [hok, if_true]
      by_cases hc : a.cmd = cmdInit
      · simp only [hc, if_true, initComplete]
        simp only [completionAllowed, hc, if_true, Bool.or_eq_true, decide_eq_true_eq, hasChannel_iff] at hok
        by_cases h8 : a.bcnt.toNat < 8
        · exact .inl ⟨errInvalidLen, by simp, by simp [h8]⟩
        · by_cases hb : a.cid = broadcastCid
          · cases hf : channelsFull s.framer
            · exact .inr (.inr (.inr ⟨trivial, Nat.le_of_not_lt h8, hb, rfl, by simp [h8, hb]⟩))
            · exact .inl ⟨errOther, by simp, by simp [h8, hb]⟩
          · exact .inr (.inr (.inl ⟨trivial, Nat.le_of_not_lt h8, hb, hok.resolve_left hb, by simp [h8, hb]⟩))
      · simp only [completionAllowed, hc, if_false, Bool.and_eq_true, decide_eq_true_eq, hasChannel_iff] at hok
        exact .inr (.inl ⟨hc, hok.1, hok.2, by simp [hc]⟩)
    · exact .inl ⟨errInvalidChannel, by simp, by simp [hok]⟩

/-! ## A packet -/

/-- The record a packet makes where it passes every test before the completion test: a new one (R192-R196), or the
message in progress with the packet appended (R197-R201). -/
def PacketMakes (pkt : Octets) (s : State) (a : Assembly) : Prop :=
  (s.framer.st = .idle ∧ initHdr ≤ pkt.length ∧ isInitPacket pkt = true ∧
    (pktCid pkt = broadcastCid ∨ pktCid pkt ∈ s.framer.channels) ∧ a = startAssembly pkt s.clock) ∨
  (∃ a0, s.framer.st = .assembling a0 ∧ contHdr ≤ pkt.length ∧ isInitPacket pkt = false ∧ pktCid pkt = a0.cid ∧
    (pktSeq pkt).toNat = expectedSeq a0 ∧ a = appendPacket pkt a0)

/-- A packet fails one of the tests of its state, and is answered with the error of that test, or it makes a record
that goes through the completion test. -/
theorem handlePacket_cases (pkt : Octets) (s : State) :
    (∃ code, code ∈ [errOther, errInvalidCmd, errInvalidChannel, errChannelBusy, errInvalidSeq] ∧
      handlePacket pkt s = deliverError code s) ∨
    (∃ a, PacketMakes pkt s a ∧ handlePacket pkt s = completeOrProgress a (s.setSt (.assembling a))) := by
  cases h : s.framer.st with
  | idle =>
    simp only [handlePacket, h, idlePacket]
    split
    · exact .inl ⟨_, by simp, rfl⟩
    · split
      · exact .inl ⟨_, by simp, rfl⟩
      · split
        · exact .inl ⟨_, by simp, rfl⟩
        · rename_i h1 h2 h3
          refine .inr ⟨_, .inl ⟨h, Nat.le_of_not_lt h1, by simpa using h2, ?_, rfl⟩, rfl⟩
          simpa [hasChannel, Classical.or_iff_not_imp_left] using h3
  | assembling a0 =>
    simp only [handlePacket, h, contPacket]
    split
    · exact .inl ⟨_, by simp, rfl⟩
    · split
      · exact .inl ⟨_, by simp, rfl⟩
      · split
        · exact .inl ⟨_, by simp, rfl⟩
        · split
          · exact .inl ⟨_, by simp, rfl⟩
          · rename_i h1 h2 h3 h4
            exact .inr ⟨_, .inr ⟨a0, h, Nat.le_of_not_lt h1, by simpa using h2, by simpa using h3, by simpa using h4,
              rfl⟩, rfl⟩

/-- HANDLE stops only on a packet that is too long; otherwise it ends with a framer result (R190, R231). -/
theorem handleOp_cases (pkt : Octets) (s : State) :
    (64 < pkt.length ∧ handleOp pkt s = .refused (.packetTooLong pkt.length)) ∨
    (pkt.length ≤ 64 ∧ handleOp pkt s = finishHandle (handlePacket pkt (applyTimeout s))) := by
  by_cases h : pktSize < pkt.length
  · exact .inl ⟨h, by simp [handleOp, h]⟩
  · exact .inr ⟨Nat.le_of_not_lt h, by simp [handleOp, h]⟩

/-! ## What a HANDLE leaves alone -/

/-- The fields a HANDLE never writes, and the results, which it does not touch before its end. -/
structure SameOutside (s t : State) : Prop where
  inst : t.inst = s.inst
  parked : t.parked = s.parked
  codec : t.codec = s.codec
  clock : t.clock = s.clock
  rng : t.rng = s.rng
  pending : t.pending = s.pending
  config : t.framer.config = s.framer.config
  results : t.results = s.results

theorem applyTimeout_outside (s : State) : SameOutside s (applyTimeout s) := by
  obtain ⟨-, h⟩ | ⟨_, -, h⟩ := applyTimeout_cases s <;> rw [h] <;> exact ⟨rfl, rfl, rfl, rfl, rfl, rfl, rfl, rfl⟩

theorem completeOrProgress_outside (a : Assembly) (s : State) : SameOutside s (completeOrProgress a s).1 := by
  obtain ⟨-, h⟩ | ⟨-, ⟨_, -, h⟩ | ⟨-, -, -, h⟩ | ⟨-, -, -, -, h⟩ | ⟨-, -, -, -, h⟩⟩ := completeOrProgress_cases a s <;>
    rw [h] <;> exact ⟨rfl, rfl, rfl, rfl, rfl, rfl, rfl, rfl⟩

theorem handlePacket_outside (pkt : Octets) (s : State) : SameOutside s (handlePacket pkt s).1 := by
  obtain ⟨_, -, h⟩ | ⟨a, -, h⟩ := handlePacket_cases pkt s
  · rw [h]
    exact ⟨rfl, rfl, rfl, rfl, rfl, rfl, rfl, rfl⟩
  · rw [h]
    obtain ⟨h1, h2, h3, h4, h5, h6, h7, h8⟩ := completeOrProgress_outside a (s.setSt (.assembling a))
    exact ⟨h1, h2, h3, h4, h5, h6, h7, h8⟩

/-- The clock is sampled once by the timeout test and never again in the HANDLE (60_exceptions.md R286). -/
@[simp] theorem applyTimeout_clockSamples (s : State) : (applyTimeout s).clockSamples = s.clockSamples + 1 := by
  obtain ⟨-, h⟩ | ⟨_, -, h⟩ := applyTimeout_cases s <;> simp [h]

theorem completeOrProgress_clockSamples (a : Assembly) (s : State) :
    (completeOrProgress a s).1.clockSamples = s.clockSamples := by
  obtain ⟨-, h⟩ | ⟨-, ⟨_, -, h⟩ | ⟨-, -, -, h⟩ | ⟨-, -, -, -, h⟩ | ⟨-, -, -, -, h⟩⟩ := completeOrProgress_cases a s <;>
    rw [h] <;> rfl

@[simp] theorem handlePacket_clockSamples (pkt : Octets) (s : State) :
    (handlePacket pkt s).1.clockSamples = s.clockSamples := by
  obtain ⟨_, -, h⟩ | ⟨a, -, h⟩ := handlePacket_cases pkt s
  · rw [h]
    rfl
  · rw [h, completeOrProgress_clockSamples]
    rfl

/-! ## The record of a packet is well formed -/

/-- The octets a packet of at most 64 octets brings: at most 57 into a new record, at most 59 more into one in progress,
and never more than the message declares (10_state.md R29, R33). -/
theorem packetMakes_capacity {pkt : Octets} {s : State} {a : Assembly} (hs : s.framer.st.Wf s.framer.channels)
    (hp : pkt.length ≤ 64) (h : PacketMakes pkt s a) :
    a.received.length ≤ 57 + 59 * expectedSeq a ∧ (a.cid = broadcastCid ∨ hasChannel s.framer.channels a.cid = true) := by
  obtain ⟨-, -, -, hc, rfl⟩ | ⟨a0, h0, -, -, -, hq, rfl⟩ := h
  · refine ⟨?_, hc.imp id hasChannel_iff.2⟩
    simp only [startAssembly, initPayload, initHdr, List.length_take, List.length_drop, expectedSeq]
    omega
  · rw [h0] at hs
    refine ⟨?_, hs.admitted⟩
    have := hs.capacity
    simp only [appendPacket, contPayload, contHdr, List.length_take, List.length_append, List.length_drop]
    rw [expectedSeq_some (k := pktSeq pkt) rfl, hq]
    omega

end Sys2Proof.Machine
end

