-- ==== Sys2Proof/Laws/Exec.lean ====
section
/-! SUPPORT. Everything an instruction and a step can do, said once: the shapes of exec's arms and of step
(spec/30_encoding.md R95, R97-R99, 70_reset_and_hazards.md R312). -/

namespace Sys2Proof.Machine

/-- An instruction adds a result and does nothing else, or handles a packet, or is RESET, or is a refused code. -/
theorem exec_cases (i : Instr) (s : State) :
    (∃ r, (∀ x, r ≠ .ok (.handled x)) ∧ exec i s = .next (s.answer r)) ∨
    (∃ pkt, exec i s = handleOp pkt s) ∨
    (i = .reset ∧ exec i s = .next (s.freshFramer.answer (.ok .nothing))) ∨
    (∃ code, i = .hostOpRefused code ∧ exec i s = .refused (.operationUnassigned code)) := by
  have hd : ∀ b, ∃ r, (∀ x, r ≠ .ok (.handled x)) ∧ decodeOp b s = .next (s.answer r) := fun b =>
    ⟨decodeResult s.codec b, by intro x; unfold decodeResult; split <;> simp, rfl⟩
  cases i with
  | reset => exact .inr (.inr (.inl ⟨rfl, rfl⟩))
  | hostOpRefused code => exact .inr (.inr (.inr ⟨code, rfl, rfl⟩))
  | encode v => exact .inl ⟨encodeResult s.codec v, by intro x; unfold encodeResult; split <;> simp, rfl⟩
  | decodeAll b =>
    exact .inl ⟨decodeAllResult s.codec b, by intro x; unfold decodeAllResult; split <;> [simp; (split <;> simp)], rfl⟩
  | emit cmd cid p => exact .inl ⟨emitResult cmd cid p, by intro x; unfold emitResult; split <;> simp, rfl⟩
  | isBroadcast cid => exact .inl ⟨_, by simp, rfl⟩
  | isValid cid => exact .inl ⟨_, by simp, rfl⟩
  | _ => first | exact .inl (hd _) | exact .inr (.inl ⟨_, rfl⟩)

/-- A step ends the run, refuses the request by name, or executes the request's instruction in the state that has taken
it (R312). -/
theorem step_cases (s : State) :
    (s.pending = [] ∧ step s = .fault .noOperation) ∨
    (∃ r rest, s.pending = r :: rest ∧
      ((selectInstance r.inst s = none ∧ step s = .refused (.noSuchInstance r.inst)) ∨
       (∃ s1, selectInstance r.inst s = some s1 ∧
         ((∃ e, decodeWire r.wire = .error e ∧ step s = .refused (.undecodable e)) ∨
          (∃ i, decodeWire r.wire = .ok i ∧ step s = exec i (s1.present r rest)))))) := by
  cases h : s.pending with
  | nil => exact .inl ⟨rfl, by simp [step, h]⟩
  | cons r rest =>
    refine .inr ⟨r, rest, rfl, ?_⟩
    cases h1 : selectInstance r.inst s with
    | none => exact .inl ⟨rfl, by simp [step, h, h1]⟩
    | some s1 =>
      refine .inr ⟨s1, rfl, ?_⟩
      cases h2 : decodeWire r.wire with
      | error e => exact .inl ⟨e, rfl, by simp [step, h, h1, h2]⟩
      | ok i => exact .inr ⟨i, rfl, by simp [step, h, h1, h2]⟩

/-- Taking a request keeps the invariant: it writes no record. -/
theorem present_inv {s : State} (h : s.Inv) (r : Request) (rest : List Request) : (s.present r rest).Inv :=
  ⟨h.framer, h.parked, h.order⟩

end Sys2Proof.Machine
end

