-- ==== Sys2Proof/Laws/Packets.lean ====
section
/-! SUPPORT. The fields of a packet built from its parts, and what the timeout test leaves of a state whose condition is
known (spec/30_encoding.md R80-R83, 42_hid_reassembly.md R191). -/

namespace Sys2Proof.Machine

/-! ## Octet 4 -/

@[simp] theorem initOctet_msb (cmd : BitVec 7) : (initOctet cmd).msb = true := by
  revert cmd
  decide

@[simp] theorem initOctet_low (cmd : BitVec 7) : (initOctet cmd).setWidth 7 = cmd := by
  revert cmd
  decide

@[simp] theorem contOctet_msb (seq : BitVec 7) : (contOctet seq).msb = false := by
  revert seq
  decide

@[simp] theorem contOctet_low (seq : BitVec 7) : (contOctet seq).setWidth 7 = seq := by
  revert seq
  decide

/-! ## A packet from its parts -/

@[simp] theorem length_packetOf (cid : Cid) (k : Byte) (tail : Octets) :
    (packetOf cid k tail).length = tail.length + 5 := by
  simp [packetOf, cidOctets]

@[simp] theorem pktCid_packetOf (cid : Cid) (k : Byte) (tail : Octets) : pktCid (packetOf cid k tail) = cid := rfl

@[simp] theorem isInitPacket_packetOf (cid : Cid) (k : Byte) (tail : Octets) :
    isInitPacket (packetOf cid k tail) = k.msb := rfl

@[simp] theorem pktCmd_packetOf (cid : Cid) (k : Byte) (tail : Octets) :
    pktCmd (packetOf cid k tail) = k.setWidth 7 := rfl

@[simp] theorem pktSeq_packetOf (cid : Cid) (k : Byte) (tail : Octets) :
    pktSeq (packetOf cid k tail) = k.setWidth 7 := rfl

@[simp] theorem contPayload_packetOf (cid : Cid) (k : Byte) (tail : Octets) :
    contPayload (packetOf cid k tail) = tail := rfl

@[simp] theorem pktBcnt_packetOf (cid : Cid) (k hi lo : Byte) (data : Octets) :
    pktBcnt (packetOf cid k (hi :: lo :: data)) = hi ++ lo := rfl

@[simp] theorem initPayload_packetOf (cid : Cid) (k hi lo : Byte) (data : Octets) :
    initPayload (packetOf cid k (hi :: lo :: data)) = data := rfl

/-- The big-endian number of the two octets of bcnt (20_memory.md R52). -/
theorem toNat_bcnt (hi lo : Byte) : (hi ++ lo : BitVec 16).toNat = 256 * hi.toNat + lo.toNat := by
  rw [BitVec.toNat_append, Nat.shiftLeft_eq, Nat.mul_comm, ← Nat.two_pow_add_eq_or_of_lt lo.isLt]

/-- Whatever row a command belongs to, the row handles the packet with that command. -/
theorem exec_decodeCommand (cid : Cid) (cmd : BitVec 7) (tail : Octets) (s : State) :
    exec (decodeCommand cid cmd tail) s = handleOp (packetOf cid (initOctet cmd) tail) s := by
  unfold decodeCommand
  repeat' split
  all_goals (subst_vars; rfl)

/-! ## The timeout test where its condition is known -/

theorem applyTimeout_idle {s : State} (h : s.MeetsIdle) : applyTimeout s = s.sampleClock.setSt .idle := by
  obtain ⟨-, e⟩ | ⟨a, ha, -⟩ := applyTimeout_cases s
  · exact e
  · have h1 := h a ha.1
    have h2 := ha.2
    omega

theorem applyTimeout_record {s : State} {a : Assembly} (h : s.MeetsRecord a) : applyTimeout s = s.sampleClock := by
  obtain ⟨h1, -⟩ | ⟨-, -, e⟩ := applyTimeout_cases s
  · have h2 := h1 a h.1
    have h3 := h.2
    omega
  · exact e

end Sys2Proof.Machine
end

