-- ==== Sys2Proof/Laws/PerInstr.lean ====
section
/-! SUPPORT. The per-instruction family TableRow: the request that carries a well-formed instruction has the format of
its row of spec/opcode_table.json, and its code (the initial octet, octet 4 of the packet, the operation octet) fits
the row's mask and pattern. -/

namespace Sys2Proof.Laws.TableRow

open Sys2Proof.Machine

/-- The row of the table an instruction stands for. -/
def rowOf : Instr → OpcodeRow
  | .uintImm0to15 _ _ => ⟨"UINT_IMM_0_15", .cbor, 0x00, 0xF0⟩
  | .uintImm16to23 _ _ => ⟨"UINT_IMM_16_23", .cbor, 0x10, 0xF8⟩
  | .uintArg8 _ => ⟨"UINT_ARG8", .cbor, 0x18, 0xFF⟩
  | .uintArg16 _ => ⟨"UINT_ARG16", .cbor, 0x19, 0xFF⟩
  | .uintArg32 _ => ⟨"UINT_ARG32", .cbor, 0x1A, 0xFF⟩
  | .uintArg64 _ => ⟨"UINT_ARG64", .cbor, 0x1B, 0xFF⟩
  | .uintRsvdAi28to31 _ _ => ⟨"UINT_RSVD_AI28_31", .cbor, 0x1C, 0xFC⟩
  | .nintImm0to15 _ _ => ⟨"NINT_IMM_0_15", .cbor, 0x20, 0xF0⟩
  | .nintImm16to23 _ _ => ⟨"NINT_IMM_16_23", .cbor, 0x30, 0xF8⟩
  | .nintArg8 _ => ⟨"NINT_ARG8", .cbor, 0x38, 0xFF⟩
  | .nintArg16 _ => ⟨"NINT_ARG16", .cbor, 0x39, 0xFF⟩
  | .nintArg32 _ => ⟨"NINT_ARG32", .cbor, 0x3A, 0xFF⟩
  | .nintArg64 _ => ⟨"NINT_ARG64", .cbor, 0x3B, 0xFF⟩
  | .nintRsvdAi28to31 _ _ => ⟨"NINT_RSVD_AI28_31", .cbor, 0x3C, 0xFC⟩
  | .bstrImm0to15 _ _ => ⟨"BSTR_IMM_0_15", .cbor, 0x40, 0xF0⟩
  | .bstrImm16to23 _ _ => ⟨"BSTR_IMM_16_23", .cbor, 0x50, 0xF8⟩
  | .bstrArg8 _ => ⟨"BSTR_ARG8", .cbor, 0x58, 0xFF⟩
  | .bstrArg16 _ => ⟨"BSTR_ARG16", .cbor, 0x59, 0xFF⟩
  | .bstrArg32 _ => ⟨"BSTR_ARG32", .cbor, 0x5A, 0xFF⟩
  | .bstrArg64 _ => ⟨"BSTR_ARG64", .cbor, 0x5B, 0xFF⟩
  | .bstrRsvdAi28to31 _ _ => ⟨"BSTR_RSVD_AI28_31", .cbor, 0x5C, 0xFC⟩
  | .tstrImm0to15 _ _ => ⟨"TSTR_IMM_0_15", .cbor, 0x60, 0xF0⟩
  | .tstrImm16to23 _ _ => ⟨"TSTR_IMM_16_23", .cbor, 0x70, 0xF8⟩
  | .tstrArg8 _ => ⟨"TSTR_ARG8", .cbor, 0x78, 0xFF⟩
  | .tstrArg16 _ => ⟨"TSTR_ARG16", .cbor, 0x79, 0xFF⟩
  | .tstrArg32 _ => ⟨"TSTR_ARG32", .cbor, 0x7A, 0xFF⟩
  | .tstrArg64 _ => ⟨"TSTR_ARG64", .cbor, 0x7B, 0xFF⟩
  | .tstrRsvdAi28to31 _ _ => ⟨"TSTR_RSVD_AI28_31", .cbor, 0x7C, 0xFC⟩
  | .arrayImm0to15 _ _ => ⟨"ARRAY_IMM_0_15", .cbor, 0x80, 0xF0⟩
  | .arrayImm16to23 _ _ => ⟨"ARRAY_IMM_16_23", .cbor, 0x90, 0xF8⟩
  | .arrayArg8 _ => ⟨"ARRAY_ARG8", .cbor, 0x98, 0xFF⟩
  | .arrayArg16 _ => ⟨"ARRAY_ARG16", .cbor, 0x99, 0xFF⟩
  | .arrayArg32 _ => ⟨"ARRAY_ARG32", .cbor, 0x9A, 0xFF⟩
  | .arrayArg64 _ => ⟨"ARRAY_ARG64", .cbor, 0x9B, 0xFF⟩
  | .arrayRsvdAi28to31 _ _ => ⟨"ARRAY_RSVD_AI28_31", .cbor, 0x9C, 0xFC⟩
  | .mapImm0to15 _ _ => ⟨"MAP_IMM_0_15", .cbor, 0xA0, 0xF0⟩
  | .mapImm16to23 _ _ => ⟨"MAP_IMM_16_23", .cbor, 0xB0, 0xF8⟩
  | .mapArg8 _ => ⟨"MAP_ARG8", .cbor, 0xB8, 0xFF⟩
  | .mapArg16 _ => ⟨"MAP_ARG16", .cbor, 0xB9, 0xFF⟩
  | .mapArg32 _ => ⟨"MAP_ARG32", .cbor, 0xBA, 0xFF⟩
  | .mapArg64 _ => ⟨"MAP_ARG64", .cbor, 0xBB, 0xFF⟩
  | .mapRsvdAi28to31 _ _ => ⟨"MAP_RSVD_AI28_31", .cbor, 0xBC, 0xFC⟩
  | .tagUnsupported _ _ => ⟨"TAG_UNSUPPORTED", .cbor, 0xC0, 0xE0⟩
  | .simpleE0toEFInvalid _ _ => ⟨"SIMPLE_E0_EF_INVALID", .cbor, 0xE0, 0xF0⟩
  | .simpleF0toF3Invalid _ _ => ⟨"SIMPLE_F0_F3_INVALID", .cbor, 0xF0, 0xFC⟩
  | .cborFalse _ => ⟨"FALSE", .cbor, 0xF4, 0xFF⟩
  | .cborTrue _ => ⟨"TRUE", .cbor, 0xF5, 0xFF⟩
  | .simpleF6toF7Invalid _ _ => ⟨"SIMPLE_F6_F7_INVALID", .cbor, 0xF6, 0xFE⟩
  | .simpleF8toFBInvalid _ _ => ⟨"SIMPLE_F8_FB_INVALID", .cbor, 0xF8, 0xFC⟩
  | .simpleFCtoFFInvalid _ _ => ⟨"SIMPLE_FC_FF_INVALID", .cbor, 0xFC, 0xFC⟩
  | .ctaphidPing _ _ => ⟨"CTAPHID_PING", .ctaphid, 0x81, 0xFF⟩
  | .ctaphidMsg _ _ => ⟨"CTAPHID_MSG", .ctaphid, 0x83, 0xFF⟩
  | .ctaphidLock _ _ => ⟨"CTAPHID_LOCK", .ctaphid, 0x84, 0xFF⟩
  | .ctaphidInit _ _ => ⟨"CTAPHID_INIT", .ctaphid, 0x86, 0xFF⟩
  | .ctaphidWink _ _ => ⟨"CTAPHID_WINK", .ctaphid, 0x88, 0xFF⟩
  | .ctaphidCbor _ _ => ⟨"CTAPHID_CBOR", .ctaphid, 0x90, 0xFF⟩
  | .ctaphidCancel _ _ => ⟨"CTAPHID_CANCEL", .ctaphid, 0x91, 0xFF⟩
  | .ctaphidKeepalive _ _ => ⟨"CTAPHID_KEEPALIVE", .ctaphid, 0xBB, 0xFF⟩
  | .ctaphidError _ _ => ⟨"CTAPHID_ERROR", .ctaphid, 0xBF, 0xFF⟩
  | .ctaphidInitPacketOtherCmd _ _ _ => ⟨"CTAPHID_INIT_PACKET_OTHER_CMD", .ctaphid, 0x80, 0x80⟩
  | .ctaphidContPacket _ _ _ => ⟨"CTAPHID_CONT_PACKET", .ctaphid, 0x00, 0x80⟩
  | .reset => ⟨"RESET", .hostOp, 0x00, 0x0F⟩
  | .encode _ => ⟨"ENCODE", .hostOp, 0x01, 0x0F⟩
  | .decode _ => ⟨"DECODE", .hostOp, 0x02, 0x0F⟩
  | .decodeAll _ => ⟨"DECODE_ALL", .hostOp, 0x03, 0x0F⟩
  | .handle _ => ⟨"HANDLE", .hostOp, 0x04, 0x0F⟩
  | .emit _ _ _ => ⟨"EMIT", .hostOp, 0x05, 0x0F⟩
  | .isBroadcast _ => ⟨"IS_BROADCAST", .hostOp, 0x06, 0x0F⟩
  | .isValid _ => ⟨"IS_VALID", .hostOp, 0x07, 0x0F⟩
  | .hostOpRefused _ => ⟨"HOST_OP_REFUSED", .hostOp, 0x08, 0x08⟩

/-- The octet of a request that the table's rows describe. -/
def codeOctet (w : Wire) : Byte :=
  match w.format with
  | .cbor => octetAt w.octets 0
  | .ctaphid => octetAt w.octets 4
  | .hostOp => octetAt w.octets 0

/-- The request of a well-formed instruction fits its row, which is one of the table's. -/
def Statement (i : Instr) : Prop :=
  i.wf = true → (encodeInstr i).format = (rowOf i).format ∧
    (rowOf i).fits (codeOctet (encodeInstr i)).toNat = true ∧ rowOf i ∈ opcodeRows

/-- The statement from an instruction's row and code octet. -/
theorem of_row {i : Instr} (r : OpcodeRow) (c : Byte) (hr : rowOf i = r) (hc : codeOctet (encodeInstr i) = c)
    (hf : (encodeInstr i).format = r.format) (hfit : r.fits c.toNat = true) (hm : r ∈ opcodeRows) : Statement i := by
  intro _
  rw [hr, hc]
  exact ⟨hf, hfit, hm⟩

theorem uintImm0to15 (ai : BitVec 4) (tail : Octets) : Statement (.uintImm0to15 ai tail) :=
  of_row ⟨"UINT_IMM_0_15", .cbor, 0x00, 0xF0⟩ (BitVec.ofNat 4 0 ++ ai) rfl rfl rfl ((by decide : ∀ ai : BitVec 4,
    OpcodeRow.fits ⟨"UINT_IMM_0_15", .cbor, 0x00, 0xF0⟩ (BitVec.ofNat 4 0 ++ ai : Byte).toNat = true) ai)
    (by decide)

theorem uintImm16to23 (lo : BitVec 3) (tail : Octets) : Statement (.uintImm16to23 lo tail) :=
  of_row ⟨"UINT_IMM_16_23", .cbor, 0x10, 0xF8⟩ (BitVec.ofNat 5 2 ++ lo) rfl rfl rfl ((by decide : ∀ lo : BitVec 3,
    OpcodeRow.fits ⟨"UINT_IMM_16_23", .cbor, 0x10, 0xF8⟩ (BitVec.ofNat 5 2 ++ lo : Byte).toNat = true) lo)
    (by decide)

theorem uintArg8 (tail : Octets) : Statement (.uintArg8 tail) :=
  of_row ⟨"UINT_ARG8", .cbor, 0x18, 0xFF⟩ 0x18 rfl rfl rfl (by decide) (by decide)

theorem uintArg16 (tail : Octets) : Statement (.uintArg16 tail) :=
  of_row ⟨"UINT_ARG16", .cbor, 0x19, 0xFF⟩ 0x19 rfl rfl rfl (by decide) (by decide)

theorem uintArg32 (tail : Octets) : Statement (.uintArg32 tail) :=
  of_row ⟨"UINT_ARG32", .cbor, 0x1A, 0xFF⟩ 0x1A rfl rfl rfl (by decide) (by decide)

theorem uintArg64 (tail : Octets) : Statement (.uintArg64 tail) :=
  of_row ⟨"UINT_ARG64", .cbor, 0x1B, 0xFF⟩ 0x1B rfl rfl rfl (by decide) (by decide)

theorem uintRsvdAi28to31 (lo : BitVec 2) (tail : Octets) : Statement (.uintRsvdAi28to31 lo tail) :=
  of_row ⟨"UINT_RSVD_AI28_31", .cbor, 0x1C, 0xFC⟩ (BitVec.ofNat 6 7 ++ lo) rfl rfl rfl ((by decide : ∀ lo : BitVec 2,
    OpcodeRow.fits ⟨"UINT_RSVD_AI28_31", .cbor, 0x1C, 0xFC⟩ (BitVec.ofNat 6 7 ++ lo : Byte).toNat = true) lo)
    (by decide)

theorem nintImm0to15 (ai : BitVec 4) (tail : Octets) : Statement (.nintImm0to15 ai tail) :=
  of_row ⟨"NINT_IMM_0_15", .cbor, 0x20, 0xF0⟩ (BitVec.ofNat 4 2 ++ ai) rfl rfl rfl ((by decide : ∀ ai : BitVec 4,
    OpcodeRow.fits ⟨"NINT_IMM_0_15", .cbor, 0x20, 0xF0⟩ (BitVec.ofNat 4 2 ++ ai : Byte).toNat = true) ai)
    (by decide)

theorem nintImm16to23 (lo : BitVec 3) (tail : Octets) : Statement (.nintImm16to23 lo tail) :=
  of_row ⟨"NINT_IMM_16_23", .cbor, 0x30, 0xF8⟩ (BitVec.ofNat 5 6 ++ lo) rfl rfl rfl ((by decide : ∀ lo : BitVec 3,
    OpcodeRow.fits ⟨"NINT_IMM_16_23", .cbor, 0x30, 0xF8⟩ (BitVec.ofNat 5 6 ++ lo : Byte).toNat = true) lo)
    (by decide)

theorem nintArg8 (tail : Octets) : Statement (.nintArg8 tail) :=
  of_row ⟨"NINT_ARG8", .cbor, 0x38, 0xFF⟩ 0x38 rfl rfl rfl (by decide) (by decide)

theorem nintArg16 (tail : Octets) : Statement (.nintArg16 tail) :=
  of_row ⟨"NINT_ARG16", .cbor, 0x39, 0xFF⟩ 0x39 rfl rfl rfl (by decide) (by decide)

theorem nintArg32 (tail : Octets) : Statement (.nintArg32 tail) :=
  of_row ⟨"NINT_ARG32", .cbor, 0x3A, 0xFF⟩ 0x3A rfl rfl rfl (by decide) (by decide)

theorem nintArg64 (tail : Octets) : Statement (.nintArg64 tail) :=
  of_row ⟨"NINT_ARG64", .cbor, 0x3B, 0xFF⟩ 0x3B rfl rfl rfl (by decide) (by decide)

theorem nintRsvdAi28to31 (lo : BitVec 2) (tail : Octets) : Statement (.nintRsvdAi28to31 lo tail) :=
  of_row ⟨"NINT_RSVD_AI28_31", .cbor, 0x3C, 0xFC⟩ (BitVec.ofNat 6 15 ++ lo) rfl rfl rfl ((by decide : ∀ lo : BitVec 2,
    OpcodeRow.fits ⟨"NINT_RSVD_AI28_31", .cbor, 0x3C, 0xFC⟩ (BitVec.ofNat 6 15 ++ lo : Byte).toNat = true) lo)
    (by decide)

theorem bstrImm0to15 (ai : BitVec 4) (tail : Octets) : Statement (.bstrImm0to15 ai tail) :=
  of_row ⟨"BSTR_IMM_0_15", .cbor, 0x40, 0xF0⟩ (BitVec.ofNat 4 4 ++ ai) rfl rfl rfl ((by decide : ∀ ai : BitVec 4,
    OpcodeRow.fits ⟨"BSTR_IMM_0_15", .cbor, 0x40, 0xF0⟩ (BitVec.ofNat 4 4 ++ ai : Byte).toNat = true) ai)
    (by decide)

theorem bstrImm16to23 (lo : BitVec 3) (tail : Octets) : Statement (.bstrImm16to23 lo tail) :=
  of_row ⟨"BSTR_IMM_16_23", .cbor, 0x50, 0xF8⟩ (BitVec.ofNat 5 10 ++ lo) rfl rfl rfl ((by decide : ∀ lo : BitVec 3,
    OpcodeRow.fits ⟨"BSTR_IMM_16_23", .cbor, 0x50, 0xF8⟩ (BitVec.ofNat 5 10 ++ lo : Byte).toNat = true) lo)
    (by decide)

theorem bstrArg8 (tail : Octets) : Statement (.bstrArg8 tail) :=
  of_row ⟨"BSTR_ARG8", .cbor, 0x58, 0xFF⟩ 0x58 rfl rfl rfl (by decide) (by decide)

theorem bstrArg16 (tail : Octets) : Statement (.bstrArg16 tail) :=
  of_row ⟨"BSTR_ARG16", .cbor, 0x59, 0xFF⟩ 0x59 rfl rfl rfl (by decide) (by decide)

theorem bstrArg32 (tail : Octets) : Statement (.bstrArg32 tail) :=
  of_row ⟨"BSTR_ARG32", .cbor, 0x5A, 0xFF⟩ 0x5A rfl rfl rfl (by decide) (by decide)

theorem bstrArg64 (tail : Octets) : Statement (.bstrArg64 tail) :=
  of_row ⟨"BSTR_ARG64", .cbor, 0x5B, 0xFF⟩ 0x5B rfl rfl rfl (by decide) (by decide)

theorem bstrRsvdAi28to31 (lo : BitVec 2) (tail : Octets) : Statement (.bstrRsvdAi28to31 lo tail) :=
  of_row ⟨"BSTR_RSVD_AI28_31", .cbor, 0x5C, 0xFC⟩ (BitVec.ofNat 6 23 ++ lo) rfl rfl rfl ((by decide : ∀ lo : BitVec 2,
    OpcodeRow.fits ⟨"BSTR_RSVD_AI28_31", .cbor, 0x5C, 0xFC⟩ (BitVec.ofNat 6 23 ++ lo : Byte).toNat = true) lo)
    (by decide)

theorem tstrImm0to15 (ai : BitVec 4) (tail : Octets) : Statement (.tstrImm0to15 ai tail) :=
  of_row ⟨"TSTR_IMM_0_15", .cbor, 0x60, 0xF0⟩ (BitVec.ofNat 4 6 ++ ai) rfl rfl rfl ((by decide : ∀ ai : BitVec 4,
    OpcodeRow.fits ⟨"TSTR_IMM_0_15", .cbor, 0x60, 0xF0⟩ (BitVec.ofNat 4 6 ++ ai : Byte).toNat = true) ai)
    (by decide)

theorem tstrImm16to23 (lo : BitVec 3) (tail : Octets) : Statement (.tstrImm16to23 lo tail) :=
  of_row ⟨"TSTR_IMM_16_23", .cbor, 0x70, 0xF8⟩ (BitVec.ofNat 5 14 ++ lo) rfl rfl rfl ((by decide : ∀ lo : BitVec 3,
    OpcodeRow.fits ⟨"TSTR_IMM_16_23", .cbor, 0x70, 0xF8⟩ (BitVec.ofNat 5 14 ++ lo : Byte).toNat = true) lo)
    (by decide)

theorem tstrArg8 (tail : Octets) : Statement (.tstrArg8 tail) :=
  of_row ⟨"TSTR_ARG8", .cbor, 0x78, 0xFF⟩ 0x78 rfl rfl rfl (by decide) (by decide)

theorem tstrArg16 (tail : Octets) : Statement (.tstrArg16 tail) :=
  of_row ⟨"TSTR_ARG16", .cbor, 0x79, 0xFF⟩ 0x79 rfl rfl rfl (by decide) (by decide)

theorem tstrArg32 (tail : Octets) : Statement (.tstrArg32 tail) :=
  of_row ⟨"TSTR_ARG32", .cbor, 0x7A, 0xFF⟩ 0x7A rfl rfl rfl (by decide) (by decide)

theorem tstrArg64 (tail : Octets) : Statement (.tstrArg64 tail) :=
  of_row ⟨"TSTR_ARG64", .cbor, 0x7B, 0xFF⟩ 0x7B rfl rfl rfl (by decide) (by decide)

theorem tstrRsvdAi28to31 (lo : BitVec 2) (tail : Octets) : Statement (.tstrRsvdAi28to31 lo tail) :=
  of_row ⟨"TSTR_RSVD_AI28_31", .cbor, 0x7C, 0xFC⟩ (BitVec.ofNat 6 31 ++ lo) rfl rfl rfl ((by decide : ∀ lo : BitVec 2,
    OpcodeRow.fits ⟨"TSTR_RSVD_AI28_31", .cbor, 0x7C, 0xFC⟩ (BitVec.ofNat 6 31 ++ lo : Byte).toNat = true) lo)
    (by decide)

theorem arrayImm0to15 (ai : BitVec 4) (tail : Octets) : Statement (.arrayImm0to15 ai tail) :=
  of_row ⟨"ARRAY_IMM_0_15", .cbor, 0x80, 0xF0⟩ (BitVec.ofNat 4 8 ++ ai) rfl rfl rfl ((by decide : ∀ ai : BitVec 4,
    OpcodeRow.fits ⟨"ARRAY_IMM_0_15", .cbor, 0x80, 0xF0⟩ (BitVec.ofNat 4 8 ++ ai : Byte).toNat = true) ai)
    (by decide)

theorem arrayImm16to23 (lo : BitVec 3) (tail : Octets) : Statement (.arrayImm16to23 lo tail) :=
  of_row ⟨"ARRAY_IMM_16_23", .cbor, 0x90, 0xF8⟩ (BitVec.ofNat 5 18 ++ lo) rfl rfl rfl ((by decide : ∀ lo : BitVec 3,
    OpcodeRow.fits ⟨"ARRAY_IMM_16_23", .cbor, 0x90, 0xF8⟩ (BitVec.ofNat 5 18 ++ lo : Byte).toNat = true) lo)
    (by decide)

theorem arrayArg8 (tail : Octets) : Statement (.arrayArg8 tail) :=
  of_row ⟨"ARRAY_ARG8", .cbor, 0x98, 0xFF⟩ 0x98 rfl rfl rfl (by decide) (by decide)

theorem arrayArg16 (tail : Octets) : Statement (.arrayArg16 tail) :=
  of_row ⟨"ARRAY_ARG16", .cbor, 0x99, 0xFF⟩ 0x99 rfl rfl rfl (by decide) (by decide)

theorem arrayArg32 (tail : Octets) : Statement (.arrayArg32 tail) :=
  of_row ⟨"ARRAY_ARG32", .cbor, 0x9A, 0xFF⟩ 0x9A rfl rfl rfl (by decide) (by decide)

theorem arrayArg64 (tail : Octets) : Statement (.arrayArg64 tail) :=
  of_row ⟨"ARRAY_ARG64", .cbor, 0x9B, 0xFF⟩ 0x9B rfl rfl rfl (by decide) (by decide)

theorem arrayRsvdAi28to31 (lo : BitVec 2) (tail : Octets) : Statement (.arrayRsvdAi28to31 lo tail) :=
  of_row ⟨"ARRAY_RSVD_AI28_31", .cbor, 0x9C, 0xFC⟩ (BitVec.ofNat 6 39 ++ lo) rfl rfl rfl ((by decide : ∀ lo : BitVec 2,
    OpcodeRow.fits ⟨"ARRAY_RSVD_AI28_31", .cbor, 0x9C, 0xFC⟩ (BitVec.ofNat 6 39 ++ lo : Byte).toNat = true) lo)
    (by decide)

theorem mapImm0to15 (ai : BitVec 4) (tail : Octets) : Statement (.mapImm0to15 ai tail) :=
  of_row ⟨"MAP_IMM_0_15", .cbor, 0xA0, 0xF0⟩ (BitVec.ofNat 4 10 ++ ai) rfl rfl rfl ((by decide : ∀ ai : BitVec 4,
    OpcodeRow.fits ⟨"MAP_IMM_0_15", .cbor, 0xA0, 0xF0⟩ (BitVec.ofNat 4 10 ++ ai : Byte).toNat = true) ai)
    (by decide)

theorem mapImm16to23 (lo : BitVec 3) (tail : Octets) : Statement (.mapImm16to23 lo tail) :=
  of_row ⟨"MAP_IMM_16_23", .cbor, 0xB0, 0xF8⟩ (BitVec.ofNat 5 22 ++ lo) rfl rfl rfl ((by decide : ∀ lo : BitVec 3,
    OpcodeRow.fits ⟨"MAP_IMM_16_23", .cbor, 0xB0, 0xF8⟩ (BitVec.ofNat 5 22 ++ lo : Byte).toNat = true) lo)
    (by decide)

theorem mapArg8 (tail : Octets) : Statement (.mapArg8 tail) :=
  of_row ⟨"MAP_ARG8", .cbor, 0xB8, 0xFF⟩ 0xB8 rfl rfl rfl (by decide) (by decide)

theorem mapArg16 (tail : Octets) : Statement (.mapArg16 tail) :=
  of_row ⟨"MAP_ARG16", .cbor, 0xB9, 0xFF⟩ 0xB9 rfl rfl rfl (by decide) (by decide)

theorem mapArg32 (tail : Octets) : Statement (.mapArg32 tail) :=
  of_row ⟨"MAP_ARG32", .cbor, 0xBA, 0xFF⟩ 0xBA rfl rfl rfl (by decide) (by decide)

theorem mapArg64 (tail : Octets) : Statement (.mapArg64 tail) :=
  of_row ⟨"MAP_ARG64", .cbor, 0xBB, 0xFF⟩ 0xBB rfl rfl rfl (by decide) (by decide)

theorem mapRsvdAi28to31 (lo : BitVec 2) (tail : Octets) : Statement (.mapRsvdAi28to31 lo tail) :=
  of_row ⟨"MAP_RSVD_AI28_31", .cbor, 0xBC, 0xFC⟩ (BitVec.ofNat 6 47 ++ lo) rfl rfl rfl ((by decide : ∀ lo : BitVec 2,
    OpcodeRow.fits ⟨"MAP_RSVD_AI28_31", .cbor, 0xBC, 0xFC⟩ (BitVec.ofNat 6 47 ++ lo : Byte).toNat = true) lo)
    (by decide)

theorem tagUnsupported (ai : BitVec 5) (tail : Octets) : Statement (.tagUnsupported ai tail) :=
  of_row ⟨"TAG_UNSUPPORTED", .cbor, 0xC0, 0xE0⟩ (BitVec.ofNat 3 6 ++ ai) rfl rfl rfl ((by decide : ∀ ai : BitVec 5,
    OpcodeRow.fits ⟨"TAG_UNSUPPORTED", .cbor, 0xC0, 0xE0⟩ (BitVec.ofNat 3 6 ++ ai : Byte).toNat = true) ai)
    (by decide)

theorem simpleE0toEFInvalid (lo : BitVec 4) (tail : Octets) : Statement (.simpleE0toEFInvalid lo tail) :=
  of_row ⟨"SIMPLE_E0_EF_INVALID", .cbor, 0xE0, 0xF0⟩ (BitVec.ofNat 4 14 ++ lo) rfl rfl rfl ((by decide : ∀ lo : BitVec 4,
    OpcodeRow.fits ⟨"SIMPLE_E0_EF_INVALID", .cbor, 0xE0, 0xF0⟩ (BitVec.ofNat 4 14 ++ lo : Byte).toNat = true) lo)
    (by decide)

theorem simpleF0toF3Invalid (lo : BitVec 2) (tail : Octets) : Statement (.simpleF0toF3Invalid lo tail) :=
  of_row ⟨"SIMPLE_F0_F3_INVALID", .cbor, 0xF0, 0xFC⟩ (BitVec.ofNat 6 60 ++ lo) rfl rfl rfl ((by decide : ∀ lo : BitVec 2,
    OpcodeRow.fits ⟨"SIMPLE_F0_F3_INVALID", .cbor, 0xF0, 0xFC⟩ (BitVec.ofNat 6 60 ++ lo : Byte).toNat = true) lo)
    (by decide)

theorem cborFalse (tail : Octets) : Statement (.cborFalse tail) :=
  of_row ⟨"FALSE", .cbor, 0xF4, 0xFF⟩ 0xF4 rfl rfl rfl (by decide) (by decide)

theorem cborTrue (tail : Octets) : Statement (.cborTrue tail) :=
  of_row ⟨"TRUE", .cbor, 0xF5, 0xFF⟩ 0xF5 rfl rfl rfl (by decide) (by decide)

theorem simpleF6toF7Invalid (lo : BitVec 1) (tail : Octets) : Statement (.simpleF6toF7Invalid lo tail) :=
  of_row ⟨"SIMPLE_F6_F7_INVALID", .cbor, 0xF6, 0xFE⟩ (BitVec.ofNat 7 123 ++ lo) rfl rfl rfl ((by decide : ∀ lo : BitVec 1,
    OpcodeRow.fits ⟨"SIMPLE_F6_F7_INVALID", .cbor, 0xF6, 0xFE⟩ (BitVec.ofNat 7 123 ++ lo : Byte).toNat = true) lo)
    (by decide)

theorem simpleF8toFBInvalid (lo : BitVec 2) (tail : Octets) : Statement (.simpleF8toFBInvalid lo tail) :=
  of_row ⟨"SIMPLE_F8_FB_INVALID", .cbor, 0xF8, 0xFC⟩ (BitVec.ofNat 6 62 ++ lo) rfl rfl rfl ((by decide : ∀ lo : BitVec 2,
    OpcodeRow.fits ⟨"SIMPLE_F8_FB_INVALID", .cbor, 0xF8, 0xFC⟩ (BitVec.ofNat 6 62 ++ lo : Byte).toNat = true) lo)
    (by decide)

theorem simpleFCtoFFInvalid (lo : BitVec 2) (tail : Octets) : Statement (.simpleFCtoFFInvalid lo tail) :=
  of_row ⟨"SIMPLE_FC_FF_INVALID", .cbor, 0xFC, 0xFC⟩ (BitVec.ofNat 6 63 ++ lo) rfl rfl rfl ((by decide : ∀ lo : BitVec 2,
    OpcodeRow.fits ⟨"SIMPLE_FC_FF_INVALID", .cbor, 0xFC, 0xFC⟩ (BitVec.ofNat 6 63 ++ lo : Byte).toNat = true) lo)
    (by decide)

theorem ctaphidPing (cid : Cid) (tail : Octets) : Statement (.ctaphidPing cid tail) :=
  of_row ⟨"CTAPHID_PING", .ctaphid, 0x81, 0xFF⟩ 0x81 rfl rfl rfl (by decide) (by decide)

theorem ctaphidMsg (cid : Cid) (tail : Octets) : Statement (.ctaphidMsg cid tail) :=
  of_row ⟨"CTAPHID_MSG", .ctaphid, 0x83, 0xFF⟩ 0x83 rfl rfl rfl (by decide) (by decide)

theorem ctaphidLock (cid : Cid) (tail : Octets) : Statement (.ctaphidLock cid tail) :=
  of_row ⟨"CTAPHID_LOCK", .ctaphid, 0x84, 0xFF⟩ 0x84 rfl rfl rfl (by decide) (by decide)

theorem ctaphidInit (cid : Cid) (tail : Octets) : Statement (.ctaphidInit cid tail) :=
  of_row ⟨"CTAPHID_INIT", .ctaphid, 0x86, 0xFF⟩ 0x86 rfl rfl rfl (by decide) (by decide)

theorem ctaphidWink (cid : Cid) (tail : Octets) : Statement (.ctaphidWink cid tail) :=
  of_row ⟨"CTAPHID_WINK", .ctaphid, 0x88, 0xFF⟩ 0x88 rfl rfl rfl (by decide) (by decide)

theorem ctaphidCbor (cid : Cid) (tail : Octets) : Statement (.ctaphidCbor cid tail) :=
  of_row ⟨"CTAPHID_CBOR", .ctaphid, 0x90, 0xFF⟩ 0x90 rfl rfl rfl (by decide) (by decide)

theorem ctaphidCancel (cid : Cid) (tail : Octets) : Statement (.ctaphidCancel cid tail) :=
  of_row ⟨"CTAPHID_CANCEL", .ctaphid, 0x91, 0xFF⟩ 0x91 rfl rfl rfl (by decide) (by decide)

theorem ctaphidKeepalive (cid : Cid) (tail : Octets) : Statement (.ctaphidKeepalive cid tail) :=
  of_row ⟨"CTAPHID_KEEPALIVE", .ctaphid, 0xBB, 0xFF⟩ 0xBB rfl rfl rfl (by decide) (by decide)

theorem ctaphidError (cid : Cid) (tail : Octets) : Statement (.ctaphidError cid tail) :=
  of_row ⟨"CTAPHID_ERROR", .ctaphid, 0xBF, 0xFF⟩ 0xBF rfl rfl rfl (by decide) (by decide)

theorem ctaphidInitPacketOtherCmd (cid : Cid) (cmd : BitVec 7) (tail : Octets) : Statement (.ctaphidInitPacketOtherCmd cid cmd tail) :=
  of_row ⟨"CTAPHID_INIT_PACKET_OTHER_CMD", .ctaphid, 0x80, 0x80⟩ (initOctet cmd) rfl rfl rfl ((by decide : ∀ cmd : BitVec 7,
    OpcodeRow.fits ⟨"CTAPHID_INIT_PACKET_OTHER_CMD", .ctaphid, 0x80, 0x80⟩ (initOctet cmd : Byte).toNat = true) cmd)
    (by decide)

theorem ctaphidContPacket (cid : Cid) (seq : BitVec 7) (tail : Octets) : Statement (.ctaphidContPacket cid seq tail) :=
  of_row ⟨"CTAPHID_CONT_PACKET", .ctaphid, 0x00, 0x80⟩ (contOctet seq) rfl rfl rfl ((by decide : ∀ seq : BitVec 7,
    OpcodeRow.fits ⟨"CTAPHID_CONT_PACKET", .ctaphid, 0x00, 0x80⟩ (contOctet seq : Byte).toNat = true) seq)
    (by decide)

theorem reset : Statement .reset :=
  of_row ⟨"RESET", .hostOp, 0x00, 0x0F⟩ 0x00 rfl rfl rfl (by decide) (by decide)

theorem encode (v : LogicalValue) : Statement (.encode v) :=
  of_row ⟨"ENCODE", .hostOp, 0x01, 0x0F⟩ 0x01 rfl rfl rfl (by decide) (by decide)

theorem decode (b : Octets) : Statement (.decode b) :=
  of_row ⟨"DECODE", .hostOp, 0x02, 0x0F⟩ 0x02 rfl rfl rfl (by decide) (by decide)

theorem decodeAll (b : Octets) : Statement (.decodeAll b) :=
  of_row ⟨"DECODE_ALL", .hostOp, 0x03, 0x0F⟩ 0x03 rfl rfl rfl (by decide) (by decide)

theorem handle (pkt : Octets) : Statement (.handle pkt) :=
  of_row ⟨"HANDLE", .hostOp, 0x04, 0x0F⟩ 0x04 rfl rfl rfl (by decide) (by decide)

theorem emit (cmd : BitVec 7) (cid : Cid) (payload : Octets) : Statement (.emit cmd cid payload) :=
  of_row ⟨"EMIT", .hostOp, 0x05, 0x0F⟩ 0x05 rfl rfl rfl (by decide) (by decide)

theorem isBroadcast (cid : Cid) : Statement (.isBroadcast cid) :=
  of_row ⟨"IS_BROADCAST", .hostOp, 0x06, 0x0F⟩ 0x06 rfl rfl rfl (by decide) (by decide)

theorem isValid (cid : Cid) : Statement (.isValid cid) :=
  of_row ⟨"IS_VALID", .hostOp, 0x07, 0x0F⟩ 0x07 rfl rfl rfl (by decide) (by decide)

theorem hostOpRefused (code : BitVec 3) : Statement (.hostOpRefused code) :=
  of_row ⟨"HOST_OP_REFUSED", .hostOp, 0x08, 0x08⟩ (BitVec.ofNat 5 1 ++ code) rfl rfl rfl ((by decide : ∀ code : BitVec 3,
    OpcodeRow.fits ⟨"HOST_OP_REFUSED", .hostOp, 0x08, 0x08⟩ (BitVec.ofNat 5 1 ++ code : Byte).toNat = true) code)
    (by decide)

end Sys2Proof.Laws.TableRow
end

