-- ==== Sys2Proof/Tests/Slice0.lean ====
section
/-! SUPPORT. Tests: the well-formedness check, the decoder on words written out from spec/30_encoding.md, single steps on
the vectors of spec/95_test_vectors.md, and a witness for the hypotheses of each obligation that has some
(test_witness_<Name>). Expected values are the spec's. -/

namespace Sys2Proof.Tests

open Sys2Proof Sys2Proof.Machine

/-! ## Helpers -/

/-- The channel of most framer vectors. -/
def chanC : Cid := ⟨0xC0, 0xFF, 0xEE, 0x01⟩

/-- The state after vector 1.3 (INIT): idle, one channel, the clock and the RNG presenting given values. -/
def afterInit (now : Int) (rng : Cid) : State :=
  { State.reset with framer := { State.reset.framer with channels := [chanC] }, clock := now, rng := rng }

/-- The state after vector 1.3 and the packet P0 at time 100: 57 of 60 octets received. -/
def afterP0 (now : Int) : State :=
  (afterInit now chanC).setSt (.assembling ⟨chanC, 0x10, 60, (List.range 57).map (BitVec.ofNat 8), none, 100⟩)

/-- A short record: 2 of 4 octets received. -/
def shortRecord : Assembly := ⟨chanC, 0x01, 4, [0x61, 0x62], some 0, 100⟩

/-- A state with the short record in progress, at a given time. -/
def inRecord (now : Int) : State := (afterInit now chanC).setSt (.assembling shortRecord)

/-- The result an outcome ends with. -/
def resultOf : StepOutcome → Option Result
  | .next t => t.results.getLast?
  | .fault _ => none
  | .refused _ => none

/-- The record and the channels an outcome ends with. -/
def framerAfter : StepOutcome → Option (FramerState × List Cid)
  | .next t => some (t.framer.st, t.framer.channels)
  | .fault _ => none
  | .refused _ => none

/-- Parameters with MAX_DEPTH = n. -/
def depthCfg (n : Nat) : CodecConfig := ⟨some n, .numeric, .validate⟩

/-- The state after reset with other codec parameters. -/
def withCodec (c : CodecConfig) : State := { State.reset with codec := c }

/-- An array and a map of given elements. -/
def arr (l : List LogicalValue) : LogicalValue := .array (.ofList l)
def mp (l : List (LogicalValue × LogicalValue)) : LogicalValue := .map (.ofList l)

/-! ## Well-formedness: each check refuses a term -/

theorem test_wf_packet_tail : (Instr.ctaphidPing chanC (zeros 59)).wf = true ∧
    (Instr.ctaphidPing chanC (zeros 60)).wf = false ∧ (Instr.ctaphidContPacket chanC 0 (zeros 60)).wf = false := by
  decide

theorem test_wf_other_command : (Instr.ctaphidInitPacketOtherCmd chanC 0x45 []).wf = true ∧
    (Instr.ctaphidInitPacketOtherCmd chanC 0x3F []).wf = false ∧
    (Instr.ctaphidInitPacketOtherCmd chanC 0x45 (zeros 60)).wf = false := by decide

theorem test_wf_handle : (Instr.handle (zeros 64)).wf = true ∧ (Instr.handle (zeros 65)).wf = false := by decide

/-! ## Decoding: initial octets written as mt (3 bits) and ai (5 bits) from R70, R71, R78 -/

/-- The rows of one major type, from the octets of ai = 5, 21, 24, 25, 26, 27, 30. -/
theorem test_decode_uint :
    decodeCbor [0b00000101, 0xAA] = .ok (.uintImm0to15 5 [0xAA]) ∧ decodeCbor [0b00010101] = .ok (.uintImm16to23 5 []) ∧
    decodeCbor [0b00011000, 0xAA] = .ok (.uintArg8 [0xAA]) ∧ decodeCbor [0b00011001] = .ok (.uintArg16 []) ∧
    decodeCbor [0b00011010] = .ok (.uintArg32 []) ∧ decodeCbor [0b00011011] = .ok (.uintArg64 []) ∧
    decodeCbor [0b00011110] = .ok (.uintRsvdAi28to31 2 []) := by decide

theorem test_decode_nint :
    decodeCbor [0b00100101, 0xAA] = .ok (.nintImm0to15 5 [0xAA]) ∧ decodeCbor [0b00110101] = .ok (.nintImm16to23 5 []) ∧
    decodeCbor [0b00111000, 0xAA] = .ok (.nintArg8 [0xAA]) ∧ decodeCbor [0b00111001] = .ok (.nintArg16 []) ∧
    decodeCbor [0b00111010] = .ok (.nintArg32 []) ∧ decodeCbor [0b00111011] = .ok (.nintArg64 []) ∧
    decodeCbor [0b00111110] = .ok (.nintRsvdAi28to31 2 []) := by decide

theorem test_decode_bstr :
    decodeCbor [0b01000101, 0xAA] = .ok (.bstrImm0to15 5 [0xAA]) ∧ decodeCbor [0b01010101] = .ok (.bstrImm16to23 5 []) ∧
    decodeCbor [0b01011000, 0xAA] = .ok (.bstrArg8 [0xAA]) ∧ decodeCbor [0b01011001] = .ok (.bstrArg16 []) ∧
    decodeCbor [0b01011010] = .ok (.bstrArg32 []) ∧ decodeCbor [0b01011011] = .ok (.bstrArg64 []) ∧
    decodeCbor [0b01011110] = .ok (.bstrRsvdAi28to31 2 []) := by decide

theorem test_decode_tstr :
    decodeCbor [0b01100101, 0xAA] = .ok (.tstrImm0to15 5 [0xAA]) ∧ decodeCbor [0b01110101] = .ok (.tstrImm16to23 5 []) ∧
    decodeCbor [0b01111000, 0xAA] = .ok (.tstrArg8 [0xAA]) ∧ decodeCbor [0b01111001] = .ok (.tstrArg16 []) ∧
    decodeCbor [0b01111010] = .ok (.tstrArg32 []) ∧ decodeCbor [0b01111011] = .ok (.tstrArg64 []) ∧
    decodeCbor [0b01111110] = .ok (.tstrRsvdAi28to31 2 []) := by decide

theorem test_decode_array :
    decodeCbor [0b10000101, 0xAA] = .ok (.arrayImm0to15 5 [0xAA]) ∧ decodeCbor [0b10010101] = .ok (.arrayImm16to23 5 []) ∧
    decodeCbor [0b10011000, 0xAA] = .ok (.arrayArg8 [0xAA]) ∧ decodeCbor [0b10011001] = .ok (.arrayArg16 []) ∧
    decodeCbor [0b10011010] = .ok (.arrayArg32 []) ∧ decodeCbor [0b10011011] = .ok (.arrayArg64 []) ∧
    decodeCbor [0b10011110] = .ok (.arrayRsvdAi28to31 2 []) := by decide

theorem test_decode_map :
    decodeCbor [0b10100101, 0xAA] = .ok (.mapImm0to15 5 [0xAA]) ∧ decodeCbor [0b10110101] = .ok (.mapImm16to23 5 []) ∧
    decodeCbor [0b10111000, 0xAA] = .ok (.mapArg8 [0xAA]) ∧ decodeCbor [0b10111001] = .ok (.mapArg16 []) ∧
    decodeCbor [0b10111010] = .ok (.mapArg32 []) ∧ decodeCbor [0b10111011] = .ok (.mapArg64 []) ∧
    decodeCbor [0b10111110] = .ok (.mapRsvdAi28to31 2 []) := by decide

theorem test_decode_tag_and_simple :
    decodeCbor [0b11011000, 0xAA] = .ok (.tagUnsupported 24 [0xAA]) ∧
    decodeCbor [0b11101111] = .ok (.simpleE0toEFInvalid 15 []) ∧ decodeCbor [0b11110011] = .ok (.simpleF0toF3Invalid 3 []) ∧
    decodeCbor [0b11110100] = .ok (.cborFalse []) ∧ decodeCbor [0b11110101] = .ok (.cborTrue []) ∧
    decodeCbor [0b11110111] = .ok (.simpleF6toF7Invalid 1 []) ∧ decodeCbor [0b11111001] = .ok (.simpleF8toFBInvalid 1 []) ∧
    decodeCbor [0b11111110] = .ok (.simpleFCtoFFInvalid 2 []) := by decide

/-- Octet 4 written as the high bit and the 7-bit command of R90, or the sequence number (R80, R81). -/
theorem test_decode_packets :
    decodePacket [0xC0, 0xFF, 0xEE, 0x01, 0b10000001, 0, 2] = .ok (.ctaphidPing chanC [0, 2]) ∧
    decodePacket [0xC0, 0xFF, 0xEE, 0x01, 0b10000011] = .ok (.ctaphidMsg chanC []) ∧
    decodePacket [0xC0, 0xFF, 0xEE, 0x01, 0b10000100] = .ok (.ctaphidLock chanC []) ∧
    decodePacket [0xC0, 0xFF, 0xEE, 0x01, 0b10000110] = .ok (.ctaphidInit chanC []) ∧
    decodePacket [0xC0, 0xFF, 0xEE, 0x01, 0b10001000] = .ok (.ctaphidWink chanC []) ∧
    decodePacket [0xC0, 0xFF, 0xEE, 0x01, 0b10010000] = .ok (.ctaphidCbor chanC []) ∧
    decodePacket [0xC0, 0xFF, 0xEE, 0x01, 0b10010001] = .ok (.ctaphidCancel chanC []) ∧
    decodePacket [0xC0, 0xFF, 0xEE, 0x01, 0b10111011] = .ok (.ctaphidKeepalive chanC []) ∧
    decodePacket [0xC0, 0xFF, 0xEE, 0x01, 0b10111111] = .ok (.ctaphidError chanC []) ∧
    decodePacket [0xC0, 0xFF, 0xEE, 0x01, 0b11000101] = .ok (.ctaphidInitPacketOtherCmd chanC 0x45 []) ∧
    decodePacket [0xC0, 0xFF, 0xEE, 0x01, 0b01111111, 9] = .ok (.ctaphidContPacket chanC 127 [9]) := by decide

/-- A packet that is of neither row, and one that cannot be presented. -/
theorem test_decode_packet_refused :
    decodePacket [0xC0, 0xFF, 0xEE, 0x01] = .error (.noPacketKind 4) ∧
    decodePacket (zeros 65) = .error (.packetTooLong 65) ∧ decodeCbor [] = .error .noInitialOctet := by decide

/-- Operation codes of R95. -/
theorem test_decode_operations :
    decodeWire (.plain .hostOp [0]) = .ok .reset ∧ decodeWire ⟨.hostOp, [1], .bool true⟩ = .ok (.encode (.bool true)) ∧
    decodeWire (.plain .hostOp [2, 0xF4]) = .ok (.decode [0xF4]) ∧
    decodeWire (.plain .hostOp [3, 0xF4]) = .ok (.decodeAll [0xF4]) ∧
    decodeWire (.plain .hostOp [4, 9]) = .ok (.handle [9]) ∧
    decodeWire (.plain .hostOp [5, 0x10, 0xC0, 0xFF, 0xEE, 0x01, 7]) = .ok (.emit 0x10 chanC [7]) ∧
    decodeWire (.plain .hostOp [6, 0xC0, 0xFF, 0xEE, 0x01]) = .ok (.isBroadcast chanC) ∧
    decodeWire (.plain .hostOp [7, 0xC0, 0xFF, 0xEE, 0x01]) = .ok (.isValid chanC) ∧
    decodeWire (.plain .hostOp [0b1101]) = .ok (.hostOpRefused 5) := by decide

/-- What an operation octet cannot be. -/
theorem test_decode_operations_refused :
    decodeWire (.plain .hostOp []) = .error .noOperation ∧ decodeWire (.plain .hostOp [16]) = .error (.operationWidth 16) ∧
    decodeWire (.plain .hostOp [5, 0x80, 0, 0, 0, 0]) = .error (.commandWidth 0x80) ∧
    decodeWire (.plain .hostOp [6, 0, 0, 0]) = .error (.operandLength 6 3) ∧
    decodeWire (.plain .hostOp [0, 1]) = .error (.operandLength 0 1) ∧
    decodeWire (.plain .hostOp (4 :: zeros 65)) = .error (.packetTooLong 65) := by decide

/-! ## Table words -/

theorem test_table_has_70_rows : opcodeRows.length = 70 := by decide

/-- A word of each of the three encodings. -/
theorem test_table_words :
    decodeTableWord 8 0x1B = some (.uintArg64 (zeros 63)) ∧
    decodeTableWord 8 0x86 = some (.ctaphidInit ⟨0, 0, 0, 0⟩ (zeros 59)) ∧
    decodeTableWord 8 0x02 = some (.decode [0]) := by decide

/-- The very next step runs the placed word: the integer 0 in nine octets (vector D2). -/
theorem test_step_runs_table_word :
    resultOf (step (State.reset.withFetchWord 8 0x1B)) = some (.ok (.decoded (.int 0) 9)) := by decide

/-- A run with nothing issued is over, and a request for an instance that does not exist is refused. -/
theorem test_step_stops : step State.reset = .fault .noOperation ∧
    step { State.reset with pending := [⟨1, 0, chanC, .plain .hostOp [0]⟩] } = .refused (.noSuchInstance 1) :=
  ⟨rfl, rfl⟩

/-- A request addresses another instance: it becomes the addressed one, and the first is parked (R287). -/
theorem test_step_selects_instance :
    (match step { State.reset with
        parked := [(1, Framer.fresh FramerConfig.reference)]
        pending := [⟨1, 5, chanC, .plain .hostOp [0]⟩] } with
      | .next t => t.inst = 1 ∧ t.parked = [(0, Framer.fresh FramerConfig.reference)] ∧ t.clock = 5
      | .fault _ => False
      | .refused _ => False) := ⟨rfl, rfl, rfl⟩

/-! ## DECODE and its rows, vectors of 95 2.2 -/

/-- 1.1, D1, D3-D5: integers. -/
theorem test_exec_integers :
    resultOf (exec (.uintImm16to23 7 []) State.reset) = some (.ok (.decoded (.int 23) 1)) ∧
    resultOf (exec (.uintArg8 [0x05]) State.reset) = some (.ok (.decoded (.int 5) 2)) ∧
    resultOf (exec (.uintArg16 [0x03, 0xE8, 0xFF]) State.reset) = some (.ok (.decoded (.int 1000) 3)) ∧
    resultOf (exec (.nintImm0to15 0 []) State.reset) = some (.ok (.decoded (.int (-1)) 1)) ∧
    resultOf (exec (.nintArg16 [0x03, 0xE7]) State.reset) = some (.ok (.decoded (.int (-1000)) 3)) ∧
    resultOf (exec (.nintArg64 [0xFF, 0xFF, 0xFF, 0xFF, 0xFF, 0xFF, 0xFF, 0xFF]) State.reset) =
      some (.ok (.decoded (.int (-18446744073709551616)) 9)) := by decide

/-- D7, D9-D11, D33-D36: strings and UTF-8. -/
theorem test_exec_strings :
    resultOf (exec (.bstrImm0to15 3 [1, 2, 3]) State.reset) = some (.ok (.decoded (.bytes [1, 2, 3]) 4)) ∧
    resultOf (exec (.tstrImm0to15 2 [0xC3, 0xA9]) State.reset) = some (.ok (.decoded (.text [0xC3, 0xA9]) 3)) ∧
    resultOf (exec (.tstrImm0to15 4 [0xF0, 0x90, 0x80, 0x80]) State.reset) =
      some (.ok (.decoded (.text [0xF0, 0x90, 0x80, 0x80]) 5)) ∧
    resultOf (exec (.tstrImm0to15 1 [0xFF]) State.reset) = some (.err (.invalidCbor 0)) ∧
    resultOf (exec (.tstrImm0to15 2 [0xC0, 0xAF]) State.reset) = some (.err (.invalidCbor 0)) ∧
    resultOf (exec (.tstrImm0to15 3 [0xED, 0xA0, 0x80]) State.reset) = some (.err (.invalidCbor 0)) ∧
    resultOf (exec (.tstrImm0to15 4 [0xF4, 0x90, 0x80, 0x80]) State.reset) = some (.err (.invalidCbor 0)) := by decide

/-- D13, D15, D26, D27, D32: containers. -/
theorem test_exec_containers :
    resultOf (exec (.arrayImm0to15 2 [1, 2]) State.reset) = some (.ok (.decoded (arr [.int 1, .int 2]) 3)) ∧
    resultOf (exec (.mapImm0to15 2 [1, 2, 3, 4]) State.reset) =
      some (.ok (.decoded (mp [(.int 1, .int 2), (.int 3, .int 4)]) 5)) ∧
    resultOf (exec (.arrayImm0to15 2 [1]) State.reset) = some (.err (.invalidCbor 2)) ∧
    resultOf (exec (.mapImm0to15 1 [1]) State.reset) = some (.err (.invalidCbor 2)) ∧
    resultOf (exec (.arrayImm0to15 2 [1, 0x1C]) State.reset) = some (.err (.invalidCbor 2)) := by decide

/-- D37, D38: duplicate keys, found before the value. -/
theorem test_exec_duplicate_keys :
    resultOf (exec (.decode [0xA2, 1, 2, 1]) State.reset) = some (.err (.invalidCbor 3)) ∧
    resultOf (exec (.decode [0xA2, 1, 0xF4, 0x18, 1, 0xF5]) State.reset) = some (.err (.invalidCbor 3)) := by decide

/-- D20-D25: truncated input. -/
theorem test_exec_truncated :
    resultOf (exec (.decode []) State.reset) = some (.err (.invalidCbor 0)) ∧
    resultOf (exec (.decode [0x19, 0x03]) State.reset) = some (.err (.invalidCbor 2)) ∧
    resultOf (exec (.decode [0x43, 0x01]) State.reset) = some (.err (.invalidCbor 2)) ∧
    resultOf (exec (.decode [0x5B, 0, 0, 0, 1, 0, 0, 0, 0]) State.reset) = some (.err (.invalidCbor 9)) := by decide

/-- D28-D31: invalid initial octets. -/
theorem test_exec_invalid_octets :
    resultOf (exec (.mapRsvdAi28to31 3 []) State.reset) = some (.err (.invalidCbor 0)) ∧
    resultOf (exec (.tagUnsupported 24 []) State.reset) = some (.err (.invalidCbor 0)) ∧
    resultOf (exec (.simpleF8toFBInvalid 1 [0]) State.reset) = some (.err (.invalidCbor 0)) ∧
    resultOf (exec (.cborTrue [0]) State.reset) = some (.ok (.decoded (.bool true) 1)) := by decide

/-- D39, D40: MAX_DEPTH = 2. -/
theorem test_exec_depth :
    resultOf (exec (.decode [0x81, 0x81, 0x80]) (withCodec (depthCfg 2))) = some (.err (.invalidCbor 2)) ∧
    resultOf (exec (.decode [0x81, 0x80]) (withCodec (depthCfg 2))) = some (.ok (.decoded (arr [arr []]) 2)) := by
  decide

/-- A1, A3, A4, A6. -/
theorem test_exec_decode_all :
    resultOf (exec (.decodeAll [1]) State.reset) = some (.ok (.decodedAll (.int 1))) ∧
    resultOf (exec (.decodeAll [1, 2]) State.reset) = some (.err (.invalidCbor 1)) ∧
    resultOf (exec (.decodeAll [0x82, 1, 2, 3]) State.reset) = some (.err (.invalidCbor 3)) ∧
    resultOf (exec (.decodeAll []) State.reset) = some (.err (.invalidCbor 0)) := by decide

/-! ## ENCODE, vectors of 95 1.1, 1.2, 2.1 -/

/-- 1.1, E4, E12, E13, E24: heads and integers. -/
theorem test_exec_encode_values :
    resultOf (exec (.encode (.int 1000)) State.reset) = some (.ok (.encoded [0x19, 0x03, 0xE8])) ∧
    resultOf (exec (.encode (.int 65536)) State.reset) = some (.ok (.encoded [0x1A, 0, 1, 0, 0])) ∧
    resultOf (exec (.encode (.int (-18446744073709551616))) State.reset) =
      some (.ok (.encoded [0x3B, 0xFF, 0xFF, 0xFF, 0xFF, 0xFF, 0xFF, 0xFF, 0xFF])) ∧
    resultOf (exec (.encode (.int 18446744073709551616)) State.reset) = some (.err .outOfRange) ∧
    resultOf (exec (.encode (arr [.int 1, arr [.int 2, .int 3]])) State.reset) =
      some (.ok (.encoded [0x82, 1, 0x82, 2, 3])) := by decide

/-- E29, E31, E32, E36, E39, E41: key order and errors. -/
theorem test_exec_encode_maps :
    resultOf (exec (.encode (mp [(.int (-1), .int 0), (.int (-2), .int 0)])) State.reset) =
      some (.ok (.encoded [0xA2, 0x21, 0, 0x20, 0])) ∧
    resultOf (exec (.encode (mp [(.int (-1), .int 0), (.int (-2), .int 0)])) (withCodec ⟨none, .encoded, .validate⟩)) =
      some (.ok (.encoded [0xA2, 0x20, 0, 0x21, 0])) ∧
    resultOf (exec (.encode (mp [(.bytes [0x62], .int 0), (.text [0x61], .int 0), (.bytes [0x61, 0x61], .int 0)]))
      State.reset) = some (.ok (.encoded [0xA3, 0x41, 0x62, 0, 0x42, 0x61, 0x61, 0, 0x61, 0x61, 0])) ∧
    resultOf (exec (.encode (mp [(.bool true, .int 1), (.bool false, .int 0), (arr [.int 0], .int 2), (arr [], .int 3)]))
      State.reset) = some (.ok (.encoded [0xA4, 0x80, 3, 0x81, 0, 2, 0xF4, 0, 0xF5, 1])) ∧
    resultOf (exec (.encode (mp [(.int 1, .bool true), (.int 1, .bool false)])) State.reset) =
      some (.err .duplicateKey) ∧
    resultOf (exec (.encode (mp [(.int 1, .int (2 ^ 64)), (.int 1, .int 0)])) State.reset) = some (.err .outOfRange) ∧
    resultOf (exec (.encode (arr [arr [arr []]])) (withCodec (depthCfg 2))) = some (.err .unsupported) := by decide

/-! ## HANDLE and its rows, vectors of 95 1.3-1.6, 2.5 -/

/-- 1.3: INIT on the broadcast channel. -/
theorem test_exec_init :
    let o := exec (.ctaphidInit broadcastCid ([0, 8, 1, 2, 3, 4, 5, 6, 7, 8] ++ zeros 49)) { State.reset with rng := chanC }
    resultOf o = some (.ok (.handled (.complete ⟨broadcastCid, 0x06,
      [1, 2, 3, 4, 5, 6, 7, 8, 0xC0, 0xFF, 0xEE, 0x01, 0x02, 0xCA, 0xFE, 0x01, 0x0D]⟩))) ∧
    framerAfter o = some (.idle, [chanC]) := by decide

/-- H4, H6, H22: what an INIT on the broadcast channel can fail with, and what else fails there. -/
theorem test_exec_broadcast_errors :
    resultOf (exec (.ctaphidInit broadcastCid [0, 4, 1, 2, 3, 4]) State.reset) =
      some (.ok (.handled (.complete ⟨broadcastCid, 0x3F, [0x03]⟩))) ∧
    resultOf (exec (.ctaphidCbor broadcastCid [0, 1, 4]) State.reset) =
      some (.ok (.handled (.complete ⟨broadcastCid, 0x3F, [0x0B]⟩))) ∧
    resultOf (exec (.ctaphidInit broadcastCid [0, 8, 1, 2, 3, 4, 5, 6, 7, 8])
      { afterInit 1 ⟨0, 0, 0, 2⟩ with framer := ⟨.idle, [chanC], ⟨0xCA, 0xFE, 0x01, some 1⟩⟩ }) =
      some (.ok (.handled (.complete ⟨broadcastCid, 0x3F, [0x7F]⟩))) := by decide

/-- H7: INIT on an allocated channel. -/
theorem test_exec_init_allocated :
    resultOf (exec (.ctaphidInit chanC [0, 8, 0xAA, 0xBB, 0xCC, 0xDD, 0xEE, 0xFF, 0x00, 0x11]) (afterInit 5 ⟨0, 0, 0, 9⟩)) =
      some (.ok (.handled (.complete ⟨chanC, 0x06, [0xAA, 0xBB, 0xCC, 0xDD, 0xEE, 0xFF, 0x00, 0x11, 0xC0, 0xFF, 0xEE, 0x01,
        0x02, 0xCA, 0xFE, 0x01, 0x0D]⟩))) := by decide

/-- 1.6, H19: delivery of every other command. -/
theorem test_exec_delivery :
    resultOf (exec (.ctaphidCbor chanC [0, 1, 4]) (afterInit 0 chanC)) =
      some (.ok (.handled (.complete ⟨chanC, 0x10, [4]⟩))) ∧
    resultOf (exec (.ctaphidWink chanC ([0, 0] ++ zeros 57)) (afterInit 0 chanC)) =
      some (.ok (.handled (.complete ⟨chanC, 0x08, []⟩))) ∧
    resultOf (exec (.ctaphidPing chanC ([0, 3, 0x61, 0x62, 0x63] ++ zeros 54)) (afterInit 0 chanC)) =
      some (.ok (.handled (.complete ⟨chanC, 0x01, [0x61, 0x62, 0x63]⟩))) ∧
    resultOf (exec (.ctaphidKeepalive chanC [0, 1, 1]) (afterInit 0 chanC)) =
      some (.ok (.handled (.complete ⟨chanC, 0x3B, [1]⟩))) ∧
    resultOf (exec (.ctaphidError chanC [0, 1, 6]) (afterInit 0 chanC)) =
      some (.ok (.handled (.complete ⟨chanC, 0x3F, [6]⟩))) ∧
    resultOf (exec (.ctaphidInitPacketOtherCmd chanC 0x45 [0, 1, 0x42]) (afterInit 0 chanC)) =
      some (.ok (.handled (.complete ⟨chanC, 0x45, [0x42]⟩))) ∧
    resultOf (exec (.ctaphidLock chanC [0, 1, 1]) (afterInit 0 chanC)) =
      some (.ok (.handled (.complete ⟨chanC, 0x04, [1]⟩))) ∧
    resultOf (exec (.ctaphidCancel chanC [0, 0]) (afterInit 0 chanC)) =
      some (.ok (.handled (.complete ⟨chanC, 0x11, []⟩))) := by decide

/-- 1.4, H1-H3: errors of an idle framer. -/
theorem test_exec_idle_errors :
    resultOf (exec (.ctaphidInit ⟨0xFF, 0xFF, 0xFE, 0xFF⟩ [0, 8]) State.reset) =
      some (.ok (.handled (.complete ⟨broadcastCid, 0x3F, [0x0B]⟩))) ∧
    resultOf (exec (.handle [1, 2, 3, 4, 0x86, 0]) State.reset) =
      some (.ok (.handled (.complete ⟨broadcastCid, 0x3F, [0x7F]⟩))) ∧
    resultOf (exec (.handle []) State.reset) = some (.ok (.handled (.complete ⟨broadcastCid, 0x3F, [0x7F]⟩))) ∧
    resultOf (exec (.ctaphidContPacket ⟨0x11, 0x22, 0x33, 0x44⟩ 0 (zeros 59)) State.reset) =
      some (.ok (.handled (.complete ⟨broadcastCid, 0x3F, [0x01]⟩))) := by decide

/-- H8, H9, H17: the continuation that completes the message, in time up to 250 ms, padded or short. -/
theorem test_exec_continuation :
    resultOf (exec (.ctaphidContPacket chanC 0 ([57, 58, 59] ++ zeros 56)) (afterP0 350)) =
      some (.ok (.handled (.complete ⟨chanC, 0x10, (List.range 60).map (BitVec.ofNat 8)⟩))) ∧
    resultOf (exec (.ctaphidContPacket chanC 0 [57, 58, 59, 0, 0]) (afterP0 110)) =
      some (.ok (.handled (.complete ⟨chanC, 0x10, (List.range 60).map (BitVec.ofNat 8)⟩))) := by decide

/-- H10, H12: after 251 ms the packet meets an idle framer; a clock that goes backwards never times out. -/
theorem test_exec_timeout :
    resultOf (exec (.ctaphidContPacket chanC 0 ([57, 58, 59] ++ zeros 56)) (afterP0 351)) =
      some (.ok (.handled (.complete ⟨broadcastCid, 0x3F, [0x01]⟩))) ∧
    resultOf (exec (.ctaphidContPacket chanC 0 ([57, 58, 59] ++ zeros 56)) (afterP0 (-5000))) =
      some (.ok (.handled (.complete ⟨chanC, 0x10, (List.range 60).map (BitVec.ofNat 8)⟩))) := by decide

/-- H13-H16: what ends a message in progress. -/
theorem test_exec_in_progress_errors :
    resultOf (exec (.ctaphidContPacket ⟨0x11, 0x22, 0x33, 0x44⟩ 0 (zeros 59)) (afterP0 110)) =
      some (.ok (.handled (.complete ⟨chanC, 0x3F, [0x06]⟩))) ∧
    resultOf (exec (.ctaphidInit broadcastCid [0, 8, 1, 2, 3, 4, 5, 6, 7, 8]) (afterP0 110)) =
      some (.ok (.handled (.complete ⟨chanC, 0x3F, [0x01]⟩))) ∧
    resultOf (exec (.ctaphidContPacket chanC 1 (zeros 59)) (afterP0 110)) =
      some (.ok (.handled (.complete ⟨chanC, 0x3F, [0x04]⟩))) ∧
    resultOf (exec (.handle [0xC0, 0xFF, 0xEE, 0x01]) (afterP0 110)) =
      some (.ok (.handled (.complete ⟨chanC, 0x3F, [0x7F]⟩))) := by decide

/-- A packet of 65 octets is refused. -/
theorem test_exec_handle_refused : exec (.handle (zeros 65)) State.reset = .refused (.packetTooLong 65) := rfl

/-! ## EMIT, RESET and the predicates, vectors of 95 1.8, 2.6, 2.7 -/

/-- M10 and the boundary of R241: one packet, and two. -/
theorem test_exec_emit :
    resultOf (exec (.emit 0x3F chanC [6]) State.reset) =
      some (.ok (.packets [[0xC0, 0xFF, 0xEE, 0x01, 0xBF, 0x00, 0x01, 0x06] ++ zeros 56])) ∧
    resultOf (exec (.emit 0x10 chanC (List.replicate 58 0x55)) State.reset) =
      some (.ok (.packets [[0xC0, 0xFF, 0xEE, 0x01, 0x90, 0x00, 0x3A] ++ List.replicate 57 0x55,
        [0xC0, 0xFF, 0xEE, 0x01, 0x00, 0x55] ++ zeros 58])) := by decide

/-- Q1-Q5. -/
theorem test_exec_predicates :
    resultOf (exec (.isBroadcast broadcastCid) State.reset) = some (.ok (.flag true)) ∧
    resultOf (exec (.isBroadcast ⟨0xFF, 0xFF, 0xFE, 0xFF⟩) State.reset) = some (.ok (.flag false)) ∧
    resultOf (exec (.isValid broadcastCid) State.reset) = some (.ok (.flag false)) ∧
    resultOf (exec (.isValid chanC) (afterInit 0 chanC)) = some (.ok (.flag true)) ∧
    resultOf (exec (.isValid ⟨0xC0, 0xFF, 0xEE, 0x02⟩) (afterInit 0 chanC)) = some (.ok (.flag false)) := by decide

/-- Q6: RESET, and the refused code. -/
theorem test_exec_reset : framerAfter (exec .reset (afterP0 110)) = some (.idle, []) ∧
    exec (.hostOpRefused 7) State.reset = .refused (.operationUnassigned 7) := ⟨rfl, rfl⟩

/-! ## Witnesses: values that meet the hypotheses of each obligation, clause by clause -/

theorem test_witness_DecodeEncodeRoundTrip : (Instr.ctaphidInitPacketOtherCmd chanC 0x7F (zeros 59)).wf = true ∧
    (Instr.handle (zeros 64)).wf = true ∧ (Instr.uintImm0to15 15 []).wf = true := by decide

theorem test_witness_DecodedInstructionWellFormed :
    decodeWire (.plain .ctaphid [0xC0, 0xFF, 0xEE, 0x01, 0xFF]) = .ok (.ctaphidInitPacketOtherCmd chanC 0x7F []) ∧
    (∀ code, Instr.ctaphidInitPacketOtherCmd chanC 0x7F [] ≠ .hostOpRefused code) ∧
    decodeWire ⟨.hostOp, [1], .bool true⟩ = .ok (.encode (.bool true)) := ⟨rfl, nofun, rfl⟩

/-- A state in the middle of a message, with a second instance and a continuation packet issued. -/
def liveState : State :=
  { inRecord 110 with
    parked := [(1, Framer.fresh FramerConfig.reference)]
    pending := [⟨0, 350, chanC, .plain .ctaphid [0xC0, 0xFF, 0xEE, 0x01, 0x01, 0x63]⟩] }

theorem liveState_inv : liveState.Inv where
  framer := ⟨by decide, ⟨by decide, by decide, .inr rfl⟩, nofun⟩
  parked := by
    intro x hx
    obtain rfl : x = (1, Framer.fresh FramerConfig.reference) := by simpa [liveState] using hx
    exact ⟨by decide, .nil, trivial, nofun⟩
  order := by decide

theorem test_witness_StepRunsDecodedInstruction : ∃ r rest s1 i, liveState.pending = r :: rest ∧
    selectInstance r.inst liveState = some s1 ∧ decodeWire r.wire = .ok i := ⟨_, _, _, _, rfl, rfl, rfl⟩

theorem test_witness_StepKeepsInvariant : liveState.Inv ∧ ∃ t, step liveState = .next t := ⟨liveState_inv, _, rfl⟩

theorem test_witness_ExecFrame : ∃ t, exec (.isValid chanC) liveState = .next t := ⟨_, rfl⟩

theorem test_witness_InstancesAreIsolated : liveState.Inv ∧ ∃ r rest t, liveState.pending = r :: rest ∧
    step liveState = .next t := ⟨liveState_inv, _, _, _, rfl, rfl⟩

theorem test_witness_CodecKeepsNoState : (encodeInstr (.simpleFCtoFFInvalid 3 [])).format = .cbor ∧
    State.reset.codec = liveState.codec := ⟨rfl, rfl⟩

theorem test_witness_UnsignedItemRows : State.reset.codec.maxDepth ≠ some 0 ∧
    (withCodec (depthCfg 1)).codec.maxDepth ≠ some 0 ∧
    ([0xFF] : Octets).length = 1 ∧ ([0xFF, 0] : Octets).length = 2 ∧ ([0, 0, 0, 0] : Octets).length = 4 ∧
    ([0xFF, 0xFF, 0xFF, 0xFF, 0xFF, 0xFF, 0xFF, 0xFF] : Octets).length = 8 ∧
    ([] : Octets).length < 1 ∧ (zeros 1).length < 2 ∧ (zeros 3).length < 4 ∧ (zeros 7).length < 8 := by decide

theorem test_witness_NegativeItemRows : (withCodec (depthCfg 1)).codec.maxDepth ≠ some 0 ∧
    ([0] : Octets).length = 1 ∧ ([0xFF, 0xFF] : Octets).length = 2 ∧ ([0, 0, 0, 0xFF] : Octets).length = 4 ∧
    ([0xFF, 0xFF, 0xFF, 0xFF, 0xFF, 0xFF, 0xFF, 0xFF] : Octets).length = 8 ∧
    ([] : Octets).length < 1 ∧ (zeros 1).length < 2 ∧ (zeros 3).length < 4 ∧ (zeros 7).length < 8 := by decide

theorem test_witness_BooleanRows : State.reset.codec.maxDepth ≠ some 0 := by decide

/-- Both ends of the immediate arguments, and ends of the longer ones that a test can hold. -/
theorem test_witness_ByteStringRows : State.reset.codec.maxDepth ≠ some 0 ∧
    ([] : Octets).length = (0 : BitVec 4).toNat ∧ (zeros 15).length = (15 : BitVec 4).toNat ∧
    (zeros 16).length = 16 + (0 : BitVec 3).toNat ∧ (zeros 23).length = 16 + (7 : BitVec 3).toNat ∧
    uintBe [0] = ([] : Octets).length ∧ uintBe [0xFF] = (zeros 255).length ∧ uintBe [1, 0] = (zeros 256).length ∧
    uintBe [0, 0, 0, 1] = (zeros 1).length ∧ uintBe [0, 0, 0, 0, 0, 0, 0, 1] = (zeros 1).length := by
  simp only [length_zeros]
  decide

/-- The same lengths; content of zeros is text, and one octet FF is not. -/
theorem test_witness_TextStringRows : utf8WellFormed (zeros 15) = true ∧ utf8WellFormed [0xFF] = false ∧
    State.reset.codec.maxDepth ≠ some 0 ∧
    ([] : Octets).length = (0 : BitVec 4).toNat ∧ (zeros 15).length = (15 : BitVec 4).toNat ∧
    (zeros 16).length = 16 + (0 : BitVec 3).toNat ∧ (zeros 23).length = 16 + (7 : BitVec 3).toNat ∧
    uintBe [0] = ([] : Octets).length ∧ uintBe [0xFF] = (zeros 255).length ∧ uintBe [1, 0] = (zeros 256).length ∧
    uintBe [0, 0, 0, 1] = (zeros 1).length ∧ uintBe [0, 0, 0, 0, 0, 0, 0, 1] = (zeros 1).length := by
  simp only [length_zeros]
  decide

/-- Octets 00 are items, one after the other. -/
theorem zerosAt {cfg : CodecConfig} {b : Octets} {d : Nat} (hd : DepthOk cfg d) : ∀ {n p : Nat},
    (∀ i, i < n → b[p + i]? = some 0) → ∃ vs, ElementsAt cfg b n p d vs (p + n) := by
  intro n
  induction n with
  | zero =>
    intro p _
    exact ⟨.nil, .nil⟩
  | succ n ih =>
    intro p h
    obtain ⟨vs, hvs⟩ := ih (p := p + 1) fun i hi => by
      rw [Nat.add_assoc, Nat.add_comm 1 i]
      exact h _ (by omega)
    have hh : HeadAt b p 0 0 (p + 1) := ⟨0, h 0 (by omega), .inl ⟨0, by decide, by decide, rfl, rfl⟩⟩
    have := ElementsAt.cons (.uint hd hh) hvs
    rw [show p + 1 + n = p + (n + 1) from by omega] at this
    exact ⟨_, this⟩

theorem test_witness_ArrayRows :
    (∃ vs r, ElementsAt .reference (((8 : BitVec 4) ++ (0 : BitVec 4)) :: []) 0 1 2 vs r) ∧
    (∃ vs r, ElementsAt .reference (((8 : BitVec 4) ++ (15 : BitVec 4)) :: zeros 15) 15 1 2 vs r) ∧
    (∃ vs r, ElementsAt .reference (((18 : BitVec 5) ++ (7 : BitVec 3)) :: zeros 23) 23 1 2 vs r) ∧
    (∃ vs r, ElementsAt .reference (0x98 :: ([24] ++ zeros 24)) (uintBe [24]) 2 2 vs r) ∧
    (∃ vs r, ElementsAt .reference (0x99 :: ([0, 1] ++ zeros 1)) (uintBe [0, 1]) 3 2 vs r) ∧
    (∃ vs r, ElementsAt .reference (0x9A :: ([0, 0, 0, 1] ++ zeros 1)) (uintBe [0, 0, 0, 1]) 5 2 vs r) ∧
    (∃ vs r, ElementsAt .reference (0x9B :: ([0, 0, 0, 0, 0, 0, 0, 1] ++ zeros 1))
      (uintBe [0, 0, 0, 0, 0, 0, 0, 1]) 9 2 vs r) := by
  have hd : DepthOk .reference 2 := nofun
  refine ⟨⟨_, _, .nil⟩, ?_, ?_, ?_, ?_, ?_, ?_⟩ <;>
    exact (zerosAt hd (by decide)).imp fun _ h => ⟨_, h⟩

/-- Octets k, 00, k + 1, 00, … below 24 are pairs of the keys k, k + 1, … and values 0. -/
theorem pairsAt {cfg : CodecConfig} {b : Octets} {d : Nat} (hd : DepthOk cfg d) : ∀ {n k p : Nat}, k + n ≤ 24 →
    (∀ i, i < n → b[p + 2 * i]? = some (BitVec.ofNat 8 (k + i)) ∧ b[p + 2 * i + 1]? = some 0) →
    ∃ ps, PairsAt cfg b n ((List.range k).map fun i => .int (i : Nat)) p d ps (p + 2 * n) := by
  intro n
  induction n with
  | zero =>
    intro k p _ _
    exact ⟨.nil, .nil⟩
  | succ n ih =>
    intro k p hk h
    obtain ⟨ps, hps⟩ := ih (k := k + 1) (p := p + 2) (by omega) fun i hi => by
      have := h (i + 1) (by omega)
      rw [show p + 2 + 2 * i = p + 2 * (i + 1) from by omega, show k + 1 + i = k + (i + 1) from by omega]
      exact this
    obtain ⟨h1, h2⟩ := h 0 (by omega)
    have hk1 : HeadAt b p 0 k (p + 1) :=
      ⟨_, h1, .inl ⟨k, by omega, by simp only [BitVec.toNat_ofNat]; omega, rfl, rfl⟩⟩
    have hv1 : HeadAt b (p + 1) 0 0 (p + 1 + 1) := ⟨0, h2, .inl ⟨0, by decide, by decide, rfl, rfl⟩⟩
    rw [List.range_succ, List.map_append, show p + 2 + 2 * n = p + 2 * (n + 1) from by omega] at hps
    refine ⟨_, .cons (.uint hd hk1) ?_ (.uint hd hv1) hps⟩
    intro k' hk'
    simp only [List.mem_map, List.mem_range] at hk'
    obtain ⟨i, hi, rfl⟩ := hk'
    simp only [LogicalValue.equiv, beq_eq_false_iff_ne]
    omega

/-- n pairs of different keys as octets. -/
def pairOctets (n : Nat) : Octets := (List.range n).flatMap fun i => [BitVec.ofNat 8 i, 0]

theorem test_witness_MapRows :
    (∃ ps r, PairsAt .reference (((10 : BitVec 4) ++ (0 : BitVec 4)) :: []) 0 [] 1 2 ps r) ∧
    (∃ ps r, PairsAt .reference (((10 : BitVec 4) ++ (15 : BitVec 4)) :: pairOctets 15) 15 [] 1 2 ps r) ∧
    (∃ ps r, PairsAt .reference (((22 : BitVec 5) ++ (7 : BitVec 3)) :: pairOctets 23) 23 [] 1 2 ps r) ∧
    (∃ ps r, PairsAt .reference (0xB8 :: ([24] ++ pairOctets 24)) (uintBe [24]) [] 2 2 ps r) ∧
    (∃ ps r, PairsAt .reference (0xB9 :: ([0, 1] ++ pairOctets 1)) (uintBe [0, 1]) [] 3 2 ps r) ∧
    (∃ ps r, PairsAt .reference (0xBA :: ([0, 0, 0, 1] ++ pairOctets 1)) (uintBe [0, 0, 0, 1]) [] 5 2 ps r) ∧
    (∃ ps r, PairsAt .reference (0xBB :: ([0, 0, 0, 0, 0, 0, 0, 1] ++ pairOctets 1))
      (uintBe [0, 0, 0, 0, 0, 0, 0, 1]) [] 9 2 ps r) := by
  have hd : DepthOk .reference 2 := nofun
  refine ⟨⟨_, _, .nil⟩, ?_, ?_, ?_, ?_, ?_, ?_⟩ <;>
    exact (pairsAt (k := 0) hd (by decide) (by decide)).imp fun _ h => ⟨_, h⟩

theorem test_witness_DecodeRunsTheRowOfItsFirstOctet :
    decodeWire (.plain .cbor [0xFF]) = .ok (.simpleFCtoFFInvalid 3 []) ∧
    decodeWire (.plain .cbor [0x00]) = .ok (.uintImm0to15 0 []) := ⟨rfl, rfl⟩

theorem test_witness_TruncatedArguments : State.reset.codec.maxDepth ≠ some 0 ∧ ([] : Octets).length < 1 ∧
    (zeros 1).length < 2 ∧ (zeros 3).length < 4 ∧ (zeros 7).length < 8 := by decide

/-- A one-octet head of argument ai at offset p. -/
theorem headAt_imm {b : Octets} {p mt ai : Nat} {ib : Byte} (h : b[p]? = some ib) (ha : ai ≤ 23)
    (e : ib.toNat = 32 * mt + ai) : HeadAt b p mt ai (p + 1) := ⟨ib, h, .inl ⟨ai, ha, e, rfl, rfl⟩⟩

/-- The integer 0 in one octet at offset p. -/
theorem itemAt_zero {cfg : CodecConfig} {b : Octets} {p d : Nat} (hd : DepthOk cfg d) (h : b[p]? = some 0) :
    ItemAt cfg b p d (.int (0 : Nat)) (p + 1) := .uint hd (headAt_imm h (by decide) (by decide))

theorem test_witness_TruncatedStrings : HeadAt [0x41] 0 2 1 1 ∧ ([0x41] : Octets).length < 1 + 1 ∧
    HeadAt [0x62, 0xC3] 0 3 2 1 ∧ ([0x62, 0xC3] : Octets).length < 1 + 2 :=
  ⟨headAt_imm rfl (by decide) (by decide), by decide, headAt_imm rfl (by decide) (by decide), by decide⟩

theorem test_witness_MissingAndFailingItems :
    (HeadAt [0x81] 0 4 1 1 ∧ ElementsAt .reference [0x81] 0 1 2 .nil 1) ∧
    (HeadAt [0xA1] 0 5 1 1 ∧ PairsAt .reference [0xA1] 0 [] 1 2 .nil 1) ∧
    (HeadAt [0xA1, 0] 0 5 1 1 ∧ PairsAt .reference [0xA1, 0] 0 [] 1 2 .nil 1 ∧
      ItemAt .reference [0xA1, 0] 1 2 (.int (0 : Nat)) 2 ∧
      ∀ k' ∈ LogicalPairs.nil.keys, k'.equiv (.int (0 : Nat)) = false) :=
  ⟨⟨headAt_imm rfl (by decide) (by decide), .nil⟩, ⟨headAt_imm rfl (by decide) (by decide), .nil⟩,
    headAt_imm rfl (by decide) (by decide), .nil, itemAt_zero nofun rfl, nofun⟩

/-- The octet 1C where an item must start. -/
theorem failsAt_1C {cfg : CodecConfig} {b : Octets} {p d : Nat} (hd : DepthOk cfg d) (h : b[p]? = some 0x1C) :
    FailsAt cfg b p d p := .initial hd h (.inl (by decide))

/-- A failing second element, a failing key, a failing value; and their whole inputs. -/
theorem test_witness_MissingAndFailingItems_nested :
    (HeadAt [0x82, 0, 0x1C] 0 4 2 1 ∧ ElementsAt .reference [0x82, 0, 0x1C] 1 1 2 (.cons (.int (0 : Nat)) .nil) 2 ∧
      FailsAt .reference [0x82, 0, 0x1C] 2 2 2 ∧ FailsAt .reference [0x82, 0, 0x1C] 0 1 2) ∧
    (HeadAt [0xA1, 0x1C] 0 5 1 1 ∧ PairsAt .reference [0xA1, 0x1C] 0 [] 1 2 .nil 1 ∧
      FailsAt .reference [0xA1, 0x1C] 1 2 1) ∧
    (HeadAt [0xA1, 0, 0x1C] 0 5 1 1 ∧ PairsAt .reference [0xA1, 0, 0x1C] 0 [] 1 2 .nil 1 ∧
      ItemAt .reference [0xA1, 0, 0x1C] 1 2 (.int (0 : Nat)) 2 ∧ FailsAt .reference [0xA1, 0, 0x1C] 2 2 2) := by
  have h : HeadAt [0x82, 0, 0x1C] 0 4 2 1 := headAt_imm rfl (by decide) (by decide)
  have hs : ElementsAt .reference [0x82, 0, 0x1C] 1 1 2 (.cons (.int (0 : Nat)) .nil) 2 :=
    .cons (itemAt_zero nofun rfl) .nil
  exact ⟨⟨h, hs, failsAt_1C nofun rfl, .element nofun h hs (by decide) (failsAt_1C nofun rfl)⟩,
    ⟨headAt_imm rfl (by decide) (by decide), .nil, failsAt_1C nofun rfl⟩,
    headAt_imm rfl (by decide) (by decide), .nil, itemAt_zero nofun rfl, failsAt_1C nofun rfl⟩

/-- D32 of 95_test_vectors.md, and an error two levels down: each offset is the nested item's own. -/
theorem test_exec_nested_errors :
    resultOf (exec (.decode [0x82, 0x01, 0x1C]) State.reset) = some (.err (.invalidCbor 2)) ∧
    resultOf (exec (.decode [0x81, 0xA1, 0x01, 0x61, 0xFF]) State.reset) = some (.err (.invalidCbor 3)) ∧
    resultOf (exec (.decode [0x81, 0xA2, 0x01, 0xF4, 0x01, 0xF5]) State.reset) = some (.err (.invalidCbor 4)) := by
  decide

theorem test_witness_DuplicateKeyOnDecode : HeadAt [0xA2, 0, 0, 0] 0 5 2 1 ∧
    (∃ ps, PairsAt .reference [0xA2, 0, 0, 0] 1 [] 1 2 ps 3 ∧ ∃ k' ∈ ps.keys, k'.equiv (.int (0 : Nat)) = true) ∧
    ItemAt .reference [0xA2, 0, 0, 0] 3 2 (.int (0 : Nat)) 4 :=
  ⟨headAt_imm rfl (by decide) (by decide),
    ⟨_, .cons (itemAt_zero nofun rfl) nofun (itemAt_zero nofun rfl) .nil, _, List.mem_cons_self, by decide⟩,
    itemAt_zero nofun rfl⟩

theorem test_witness_DecodeAllTakesTheWholeInput : ItemAt .reference [0xF4] 0 1 (.bool false) 1 ∧
    ItemAt .reference [0xF5, 0] 0 1 (.bool true) 1 ∧ 1 ≠ ([0xF5, 0] : Octets).length ∧
    exec (.decode []) State.reset = .next (State.reset.answer (.err (.invalidCbor 0))) :=
  ⟨.false nofun rfl, .true nofun rfl, by decide, rfl⟩

theorem test_witness_DecodedValueIsCborAndEncodes :
    exec (.decode [0x18, 5]) State.reset = .next (State.reset.answer (.ok (.decoded (.int 5) 2))) := rfl

theorem test_witness_EncodeDecodeRoundTrip :
    isCbor (mp [(.int (-(2 ^ 64)), arr [.text [0xC3, 0xA9]]), (.bytes [], .bool true)]) = true ∧
    DepthOk (depthCfg 3) (depthOf (mp [(.int (-(2 ^ 64)), arr [.text [0xC3, 0xA9]]), (.bytes [], .bool true)])) := by
  refine ⟨by decide, fun k h => ?_⟩
  cases h
  decide

theorem test_witness_EncodeIgnoresMapOrder :
    (LogicalPairs.ofList [(.int 2, .int 0), (.int 1, .int 0)]).toList.Perm
      (LogicalPairs.ofList [(.int 1, .int 0), (.int 2, .int 0)]).toList ∧
    exec (.encode (mp [(.int 1, .int 0), (.int 2, .int 0)])) State.reset =
      .next (State.reset.answer (.ok (.encoded [0xA2, 1, 0, 2, 0]))) ∧
    exec (.encode (mp [(.int 1, .int 0), (.int 1, .int 0)])) State.reset =
      .next (State.reset.answer (.err .duplicateKey)) := ⟨.swap .., rfl, rfl⟩

theorem test_witness_HeadIsShortestForm : 23 ≤ 23 ∧ (24 ≤ 24 ∧ 255 ≤ 255) ∧ (256 ≤ 65535 ∧ 65535 ≤ 65535) ∧
    (65536 ≤ 2 ^ 32 - 1) ∧ (2 ^ 32 ≤ 2 ^ 64 - 1) := by decide

theorem test_witness_EncodeScalars : State.reset.codec.maxDepth ≠ some 0 ∧ 2 ^ 64 - 1 < 2 ^ 64 ∧
    ((-(2 ^ 64) - 1 : Int) < -(2 ^ 64)) ∧ ((2 ^ 64 : Int) ≤ 2 ^ 64) ∧ (zeros (2 ^ 64 - 1)).length < 2 ^ 64 ∧
    2 ^ 64 ≤ (zeros (2 ^ 64)).length := by
  refine ⟨by decide, by decide, by decide, by decide, ?_, ?_⟩ <;> simp only [length_zeros] <;> decide

theorem test_witness_EncodeArrays : checkValue .reference (arr [.int 1, arr []]) 1 = none := by decide

theorem test_witness_EncodeMapsAscending :
    checkValue .reference (mp [(.int 2, .int 0), (.int 1, .int 0)]) 1 = none := by decide

theorem test_witness_CanonicalKeyOrder : keyMajor (.int 0) ≠ keyMajor (.int (-1)) ∧
    ([0x61] : Octets).length ≠ ([0x61, 0x61] : Octets).length ∧ (0x61 : Byte) ≠ 0x62 ∧
    ((-2 : Int) < 0 ∧ (-1 : Int) < 0) ∧ keyMajor (arr []) = keyMajor (arr [.int 0]) ∧ keyMajor (arr []) = 4 ∧
    keyMajor (mp []) = 5 ∧ keyMajor (.bool true) = 7 ∧ keyMajor (.bool true) = keyMajor (.bool false) := by decide

theorem test_witness_EncodeReportsFirstError :
    (State.reset.codec = .reference ∧ checkValue .reference (.int 0) 1 = none) ∧
    (¬DepthOk (depthCfg 1) 2 ∧ DepthOk (depthCfg 2) 2) ∧
    2 ^ 64 ≤ (LogicalValues.ofList (List.replicate (2 ^ 64) (.bool true))).toList.length ∧
    2 ^ 64 ≤ (LogicalPairs.ofList (List.replicate (2 ^ 64) (.bool true, .bool true))).toList.length ∧
    ([.int 0] ++ .other 0 :: [.int (2 ^ 64)] : List LogicalValue).length < 2 ^ 64 ∧
    (checkValue (depthCfg 3) (.int 0) (2 + 1) = none ∧
      checkValue (depthCfg 3) (.other 0) (2 + 1) = some .unsupported) ∧
    ((LogicalPairs.ofList [(.int 0, .int 0), (.int 0, .int 1)]).keys[0]? = some (.int 0) ∧
      (LogicalPairs.ofList [(.int 0, .int 0), (.int 0, .int 1)]).keys[1]? = some (.int 0) ∧
      (LogicalValue.int 0).equiv (.int 0) = true) := by
  refine ⟨by decide, ⟨fun h => absurd (h 1 rfl) (by decide), fun k h => by cases h; decide⟩, ?_, ?_, by decide,
    by decide, by decide⟩ <;>
    simp only [LogicalValues.toList_ofList, LogicalPairs.toList_ofList, List.length_replicate] <;> decide

/-- A map of different keys and clean children is clean. -/
theorem test_witness_EncodeReportsFirstError_clean :
    let ps := LogicalPairs.ofList [(.int 0, .int 0), (.int 1, .int 1)]
    ps.toList.length < 2 ^ 64 ∧
    (∀ p ∈ ps.toList, checkValue (depthCfg 3) p.1 3 = none ∧ checkValue (depthCfg 3) p.2 3 = none) ∧
    ∀ (i j : Nat) (a b : LogicalValue), i < j → ps.keys[i]? = some a → ps.keys[j]? = some b → a.equiv b = false := by
  refine ⟨by decide, by decide, fun i j a b h ha hb => ?_⟩
  obtain ⟨rfl, rfl⟩ : i = 0 ∧ j = 1 := by
    have := (List.getElem?_eq_some_iff.1 hb).1
    simp only [LogicalPairs.ofList, LogicalPairs.keys, List.length_cons, List.length_nil] at this
    omega
  cases ha
  cases hb
  decide

theorem test_witness_NestingDepthIsLimited : isCbor (arr [arr []]) = true ∧ 1 < depthOf (arr [arr []]) ∧
    ItemAt .reference [0x81, 0x80] 0 1 (arr [arr []]) 2 :=
  ⟨by decide, by decide, .array nofun (headAt_imm rfl (by decide) (by decide))
    (.cons (.array nofun (headAt_imm rfl (by decide) (by decide)) .nil) .nil)⟩

/-- No message is in progress. -/
theorem idle_afterInit (now : Int) (rng : Cid) : (afterInit now rng).MeetsIdle := nofun

/-- A message timed out a millisecond ago. -/
theorem idle_afterP0 : (afterP0 351).MeetsIdle := by
  intro a ha
  cases ha
  decide

theorem test_witness_IdleShortPacket : (afterP0 351).MeetsIdle ∧ (zeros 6).length < 7 := ⟨idle_afterP0, by decide⟩

theorem test_witness_IdleContinuationPacket : (afterP0 351).MeetsIdle ∧ 2 ≤ (zeros 2).length ∧ 2 ≤ (zeros 59).length ∧
    (zeros 59).length ≤ 59 := ⟨idle_afterP0, by decide, by decide, by decide⟩

theorem test_witness_IdleUnallocatedChannel : (afterP0 351).MeetsIdle ∧ 2 ≤ (zeros 2).length ∧ (zeros 59).length ≤ 59 ∧
    (⟨0, 0, 0, 0⟩ : Cid) ≠ ⟨0xFF, 0xFF, 0xFF, 0xFF⟩ ∧ (⟨0, 0, 0, 0⟩ : Cid) ∉ (afterP0 351).framer.channels :=
  ⟨idle_afterP0, by decide, by decide, by decide, by decide⟩

theorem test_witness_AssemblyStarts : (afterP0 351).MeetsIdle ∧ (zeros 57).length ≤ 57 ∧
    chanC ∈ (afterP0 351).framer.channels ∧ (zeros 57).length < 256 * (0 : Byte).toNat + (58 : Byte).toNat ∧
    ([] : Octets).length < 256 * (0 : Byte).toNat + (1 : Byte).toNat :=
  ⟨idle_afterP0, by decide, by decide, by decide, by decide⟩

/-- A declared length the packet carries, at both ends. -/
theorem test_witness_SinglePacketDelivery : (afterP0 351).MeetsIdle ∧ (zeros 57).length ≤ 57 ∧
    chanC ≠ ⟨0xFF, 0xFF, 0xFF, 0xFF⟩ ∧ chanC ∈ (afterP0 351).framer.channels ∧
    256 * (0 : Byte).toNat + (57 : Byte).toNat ≤ (zeros 57).length ∧
    256 * (0 : Byte).toNat + (0 : Byte).toNat ≤ ([] : Octets).length ∧
    (Instr.ctaphidInitPacketOtherCmd chanC 0x00 (0 :: 0 :: [])).wf = true :=
  ⟨idle_afterP0, by decide, by decide, by decide, by decide, by decide, by decide⟩

theorem test_witness_BroadcastNonInitRejected : (afterP0 351).MeetsIdle ∧ (zeros 57).length ≤ 57 ∧
    (0x10 : BitVec 7) ≠ 0x06 ∧ 256 * (0 : Byte).toNat + (57 : Byte).toNat ≤ (zeros 57).length :=
  ⟨idle_afterP0, by decide, by decide, by decide⟩

/-- Eight payload octets, and a channel table with one free place. -/
theorem test_witness_InitOnBroadcastAllocates : (afterInit 0 chanC).MeetsIdle ∧ (zeros 8).length ≤ 57 ∧
    8 ≤ 256 * (0 : Byte).toNat + (8 : Byte).toNat ∧ 256 * (0 : Byte).toNat + (8 : Byte).toNat ≤ (zeros 8).length ∧
    (∀ k, (afterInit 0 chanC).framer.config.maxChannels = some k → (afterInit 0 chanC).framer.channels.length < k) ∧
    (∀ k, (some 2 : Option Nat) = some k → ([chanC] : List Cid).length < k) :=
  ⟨idle_afterInit _ _, by decide, by decide, by decide, nofun, by simp⟩

theorem test_witness_InitOnAllocatedChannel : (afterP0 351).MeetsIdle ∧ (zeros 8).length ≤ 57 ∧
    chanC ≠ ⟨0xFF, 0xFF, 0xFF, 0xFF⟩ ∧ chanC ∈ (afterP0 351).framer.channels ∧
    8 ≤ 256 * (0 : Byte).toNat + (8 : Byte).toNat ∧ 256 * (0 : Byte).toNat + (8 : Byte).toNat ≤ (zeros 8).length :=
  ⟨idle_afterP0, by decide, by decide, by decide, by decide, by decide⟩

theorem test_witness_InitTooShort : (afterP0 351).MeetsIdle ∧ (zeros 7).length ≤ 57 ∧
    chanC ∈ (afterP0 351).framer.channels ∧ 256 * (0 : Byte).toNat + (7 : Byte).toNat < 8 ∧
    256 * (0 : Byte).toNat + (7 : Byte).toNat ≤ (zeros 7).length :=
  ⟨idle_afterP0, by decide, by decide, by decide, by decide⟩

/-- A channel table of one place, taken. -/
theorem test_witness_ChannelTableFull :
    let s : State := { afterInit 0 chanC with framer := ⟨.idle, [chanC], ⟨0, 0, 0, some 1⟩⟩ }
    s.MeetsIdle ∧ (zeros 8).length ≤ 57 ∧ 8 ≤ 256 * (0 : Byte).toNat + (8 : Byte).toNat ∧
    256 * (0 : Byte).toNat + (8 : Byte).toNat ≤ (zeros 8).length ∧ s.framer.config.maxChannels = some 1 ∧
    1 ≤ s.framer.channels.length := ⟨nofun, by decide, by decide, by decide, rfl, by decide⟩

theorem test_witness_ChannelInsertIsUnion : ChannelsWf [⟨0, 0, 0, 7⟩, chanC] ∧ chanC ∈ [⟨0, 0, 0, 7⟩, chanC] := by decide

/-- The last millisecond of a message in progress. -/
theorem meets_record (a : Assembly) (h : a.beginTs = 100) :
    ((afterInit 350 chanC).setSt (.assembling a)).MeetsRecord a := by
  refine ⟨rfl, ?_⟩
  rw [h]
  exact (by decide : (350 : Int) - 100 ≤ 250)

theorem test_witness_MessageInProgressErrors : (inRecord 350).MeetsRecord shortRecord ∧ (zeros 4).length < 5 ∧
    (zeros 59).length ≤ 59 ∧ broadcastCid ≠ shortRecord.cid ∧ (shortRecord.seqLast = none → (0 : BitVec 7) ≠ 0) ∧
    (∀ k, shortRecord.seqLast = some k → (0 : BitVec 7).toNat ≠ k.toNat + 1) := by
  refine ⟨meets_record _ rfl, by decide, by decide, by decide, nofun, fun k h => ?_⟩
  cases h
  decide

theorem test_witness_ContinuationAccepted : (inRecord 350).MeetsRecord shortRecord ∧ ([0x63] : Octets).length ≤ 59 ∧
    (1 : BitVec 7).toNat = expectedSeq shortRecord ∧
    (shortRecord.received ++ [0x63]).length < shortRecord.bcnt.toNat :=
  ⟨meets_record _ rfl, by decide, by decide, by decide⟩

/-- A record of another command, cid and length. -/
def recordOf (cid : Cid) (cmd : BitVec 7) (bcnt : BitVec 16) : Assembly := ⟨cid, cmd, bcnt, [0x61, 0x62], some 0, 100⟩

/-- Completion by the last octets that were missing: every record meets the premises of its clause. A message on the
channel, on the broadcast channel and on one not allocated; an INIT on each of them, of eight octets and of seven. -/
theorem test_witness_ContinuationCompletes :
    (∀ a ∈ [recordOf chanC 0x01 4, recordOf broadcastCid 0x01 4, recordOf ⟨0, 0, 0, 1⟩ 0x01 4, recordOf chanC 0x06 8,
        recordOf chanC 0x06 7, recordOf broadcastCid 0x06 8, recordOf broadcastCid 0x06 7,
        recordOf ⟨0, 0, 0, 1⟩ 0x06 8],
      ((afterInit 350 chanC).setSt (.assembling a)).MeetsRecord a ∧ (1 : BitVec 7).toNat = expectedSeq a ∧
      a.bcnt.toNat ≤ (a.received ++ zeros 6).length) ∧
    (zeros 6).length ≤ 59 ∧ (0x01 : BitVec 7) ≠ 0x06 ∧ 8 ≤ (8 : BitVec 16).toNat ∧ (7 : BitVec 16).toNat < 8 ∧
    chanC ≠ ⟨0xFF, 0xFF, 0xFF, 0xFF⟩ ∧ chanC ∈ (afterInit 350 chanC).framer.channels ∧
    (⟨0, 0, 0, 1⟩ : Cid) ≠ ⟨0xFF, 0xFF, 0xFF, 0xFF⟩ ∧ (⟨0, 0, 0, 1⟩ : Cid) ∉ (afterInit 350 chanC).framer.channels := by
  refine ⟨?_, by decide⟩
  intro a ha
  simp only [List.mem_cons, List.not_mem_nil, or_false] at ha
  rcases ha with rfl | rfl | rfl | rfl | rfl | rfl | rfl | rfl <;> exact ⟨meets_record _ rfl, by decide, by decide⟩

/-- R225, R221, R224: an INIT that a continuation packet completes on the broadcast channel draws and answers; one of
seven octets does not. -/
theorem test_exec_init_continued :
    let s := fun n => (afterInit 350 ⟨9, 8, 7, 6⟩).setSt (.assembling (recordOf broadcastCid 0x06 n))
    resultOf (exec (.ctaphidContPacket broadcastCid 1 (zeros 6)) (s 8)) =
      some (.ok (.handled (.complete ⟨broadcastCid, 0x06,
        [0x61, 0x62, 0, 0, 0, 0, 0, 0, 9, 8, 7, 6, 0x02, 0xCA, 0xFE, 0x01, 0x0D]⟩))) ∧
    resultOf (exec (.ctaphidContPacket broadcastCid 1 (zeros 6)) (s 7)) =
      some (.ok (.handled (.complete ⟨broadcastCid, 0x3F, [0x03]⟩))) := by decide

/-- The same INIT on the broadcast channel with one free place in the channel table, and with none. -/
theorem test_witness_ContinuationCompletes_table :
    let a := recordOf broadcastCid 0x06 8
    let s : Nat → State := fun k =>
      { afterInit 350 chanC with framer := ⟨.assembling a, [chanC], ⟨0, 0, 0, some k⟩⟩ }
    ((s 2).MeetsRecord a ∧ ∀ k, (s 2).framer.config.maxChannels = some k → (s 2).framer.channels.length < k) ∧
    ((s 1).MeetsRecord a ∧ (s 1).framer.config.maxChannels = some 1 ∧ 1 ≤ (s 1).framer.channels.length) := by
  refine ⟨⟨⟨rfl, by decide⟩, fun k h => ?_⟩, ⟨rfl, by decide⟩, rfl, by decide⟩
  cases h
  decide

theorem test_witness_TimeoutIsAFreshStart : (inRecord 351).framer.st = .assembling shortRecord ∧
    250 < (inRecord 351).clock - shortRecord.beginTs := ⟨rfl, by decide⟩

theorem test_witness_HandleIsTotal : (zeros 64).length ≤ 64 ∧ 64 < (zeros 65).length := by decide

theorem test_witness_ChannelsGrowOnlyByInit :
    (∃ t, exec (.ctaphidInit broadcastCid [0, 8, 1, 2, 3, 4, 5, 6, 7, 8]) State.reset = .next t) ∧
    Instr.ctaphidInit broadcastCid [0, 8, 1, 2, 3, 4, 5, 6, 7, 8] ≠ .reset := ⟨⟨_, rfl⟩, nofun⟩

theorem test_witness_EmittedErrorCodes : ∃ t, exec (.handle []) State.reset = .next t ∧
    t.results = State.reset.results ++ [.ok (.handled (.complete ⟨broadcastCid, 0x3F, [0x7F]⟩))] := ⟨_, rfl, rfl⟩

/-- A message of 4 octets in two packets, the second exactly 250 ms after the first. -/
theorem test_witness_FramerConservation : (afterInit 0 chanC).framer.st = .idle ∧
    (∀ x ∈ ([(350, [0xC0, 0xFF, 0xEE, 0x01, 0x00, 0x63, 0x64])] : List (Int × Octets)), x.1 - 100 ≤ 250) ∧
    ∃ t, feedPackets [(100, [0xC0, 0xFF, 0xEE, 0x01, 0x81, 0, 4, 0x61, 0x62]),
        (350, [0xC0, 0xFF, 0xEE, 0x01, 0x00, 0x63, 0x64])] (afterInit 0 chanC) = .next t ∧
      t.results = (afterInit 0 chanC).results ++ List.replicate 1 (.ok (.handled .inProgress)) ++
        [.ok (.handled (.complete ⟨chanC, 0x01, [0x61, 0x62, 0x63, 0x64]⟩))] :=
  ⟨rfl, by decide, _, rfl, rfl⟩

theorem test_witness_EmitPackets : 7609 < (zeros 7610).length ∧ (zeros 7609).length ≤ 7609 := by
  simp

theorem test_witness_SplitterInvertsFramer : (afterInit 0 chanC).framer.st = .idle ∧ (zeros 58).length ≤ 7609 ∧
    ([100, 350] : List Int).length = (emitPackets 0x10 chanC (zeros 58)).length ∧
    (∀ x ∈ ([100, 350] : List Int), ∀ x0, ([100, 350] : List Int)[0]? = some x0 → x - x0 ≤ 250) ∧
    chanC ≠ ⟨0xFF, 0xFF, 0xFF, 0xFF⟩ ∧ chanC ∈ (afterInit 0 chanC).framer.channels := by
  refine ⟨rfl, by decide, by decide, ?_, by decide, by decide⟩
  intro x hx x0 h0
  obtain rfl : x0 = 100 := by simpa using h0.symm
  revert x
  decide

/-- INIT payloads of seven and of eight octets: one packet each. -/
theorem test_witness_SplitterInvertsFramer_init :
    ([350] : List Int).length = (emitPackets 0x06 chanC (zeros 7)).length ∧ (zeros 7).length < 8 ∧
    ([350] : List Int).length = (emitPackets 0x06 chanC (zeros 8)).length ∧ 8 ≤ (zeros 8).length ∧
    (∀ x ∈ ([350] : List Int), ∀ x0, ([350] : List Int)[0]? = some x0 → x - x0 ≤ 250) := by
  refine ⟨by decide, by decide, by decide, by decide, ?_⟩
  intro x hx x0 h0
  obtain rfl : x0 = 350 := by simpa using h0.symm
  revert x
  decide

theorem test_witness_UnassignedOperationsRefused : 8 ≤ (8 : Byte).toNat ∧ (15 : Byte).toNat ≤ 15 := by decide

end Sys2Proof.Tests
end

section
/-! SUPPORT. The codec holds no state (spec/10_state.md R23): every operation of it answers with a function of its
operands and the parameters. -/

namespace Sys2Proof.Machine

/-- A row of the CBOR initial octet is the DECODE of the octets that encode it (30_encoding.md R97; log 1). -/
theorem exec_eq_decodeOp_of_format_cbor {i : Instr} (h : (encodeInstr i).format = .cbor) (s : State) :
    exec i s = decodeOp (encodeInstr i).octets s := by
  cases i with
  | ctaphidPing | ctaphidMsg | ctaphidLock | ctaphidInit | ctaphidWink | ctaphidCbor | ctaphidCancel
  | ctaphidKeepalive | ctaphidError | ctaphidInitPacketOtherCmd | ctaphidContPacket
  | reset | encode | decode | decodeAll | handle | emit | isBroadcast | isValid | hostOpRefused => nomatch h
  | _ => rfl

/-- Settles O9: what a codec operation answers is one function of the parameters, the same in every state. -/
theorem codecKeepsNoState : Obligations.CodecKeepsNoState := by
  intro i s s' hi hcfg
  have hanswer : ∃ result : CodecConfig → Result, ∀ t, exec i t = .next (t.answer (result t.codec)) := by
    obtain hrow | ⟨v, rfl⟩ | ⟨b, rfl⟩ | ⟨b, rfl⟩ := hi
    · exact ⟨(decodeResult · (encodeInstr i).octets), exec_eq_decodeOp_of_format_cbor hrow⟩
    · exact ⟨(encodeResult · v), fun _ => rfl⟩
    · exact ⟨(decodeResult · b), fun _ => rfl⟩
    · exact ⟨(decodeAllResult · b), fun _ => rfl⟩
  obtain ⟨result, hexec⟩ := hanswer
  refine ⟨result s.codec, hexec s, ?_⟩
  rw [hcfg]
  exact hexec s'

end Sys2Proof.Machine
end

section
/-! SUPPORT. The encoder's heads: the initial octet as a number and one equation per length of the argument
(spec/30_encoding.md R70, R73). -/

namespace Sys2Proof.Machine

/-- `(mt << 5) | ai` is the octet of `32 * mt + ai` (R70). -/
theorem initialOctet_eq_ofNat (mt : BitVec 3) (ai : BitVec 5) :
    initialOctet mt ai = BitVec.ofNat 8 (32 * mt.toNat + ai.toNat) := by
  have hor : mt.toNat <<< 5 ||| ai.toNat = 32 * mt.toNat + ai.toNat := by
    rw [← Nat.shiftLeft_add_eq_or_of_lt ai.isLt, Nat.shiftLeft_eq, Nat.mul_comm]
  apply BitVec.eq_of_toNat_eq
  rw [initialOctet, BitVec.toNat_append, BitVec.toNat_ofNat, hor, Nat.mod_eq_of_lt (by omega)]

theorem head_inline (mt : BitVec 3) {a : Nat} (h : a ≤ 23) : head mt a = [initialOctet mt (BitVec.ofNat 5 a)] :=
  if_pos h

theorem head_one_octet (mt : BitVec 3) {a : Nat} (hlo : 24 ≤ a) (hhi : a ≤ 255) :
    head mt a = initialOctet mt 24 :: beOctets 1 a := by
  rw [head, if_neg (by omega), if_pos hhi]

theorem head_two_octets (mt : BitVec 3) {a : Nat} (hlo : 256 ≤ a) (hhi : a ≤ 65535) :
    head mt a = initialOctet mt 25 :: beOctets 2 a := by
  rw [head, if_neg (by omega), if_neg (by omega), if_pos hhi]

theorem head_four_octets (mt : BitVec 3) {a : Nat} (hlo : 65536 ≤ a) (hhi : a ≤ 2 ^ 32 - 1) :
    head mt a = initialOctet mt 26 :: beOctets 4 a := by
  rw [head, if_neg (by omega), if_neg (by omega), if_neg (by omega), if_pos hhi]

theorem head_eight_octets (mt : BitVec 3) {a : Nat} (hlo : 2 ^ 32 ≤ a) :
    head mt a = initialOctet mt 27 :: beOctets 8 a := by
  rw [head, if_neg (by omega), if_neg (by omega), if_neg (by omega), if_neg (by omega)]

/-- Settles O29: one head equation per range, with its octets written out; eight octets hold every argument below
2^64. -/
theorem headIsShortestForm : Obligations.HeadIsShortestForm := by
  intro mt a
  refine ⟨fun hhi => ?inline, fun hlo hhi => ?one, fun hlo hhi => ?two, fun hlo hhi => ?four, fun hlo hhi => ?eight⟩
  case inline =>
    rw [head_inline mt hhi, initialOctet_eq_ofNat, BitVec.toNat_ofNat, Nat.mod_eq_of_lt (by omega)]
  case one => simp [head_one_octet mt hlo hhi, initialOctet_eq_ofNat, beOctets]
  case two => simp [head_two_octets mt hlo hhi, initialOctet_eq_ofNat, beOctets]
  case four => simp [head_four_octets mt hlo hhi, initialOctet_eq_ofNat, beOctets]
  case eight =>
    refine ⟨beOctets 8 a, ?_, length_beOctets 8 a, uintBe_beOctets (by omega)⟩
    rw [head_eight_octets mt hlo, initialOctet_eq_ofNat]
    rfl

end Sys2Proof.Machine
end

section
/-! SUPPORT. ENCODE of an operand its check accepts, and the octets of an array (spec/40_cbor_encode.md R110, R111,
R115). -/

namespace Sys2Proof.Machine

/-- An operand the check accepts is written as `enc` writes it (R110). -/
theorem exec_encode_of_check_eq_none {s : State} {v : LogicalValue} (h : checkValue s.codec v 1 = none) :
    exec (.encode v) s = .next (s.answer (.ok (.encoded (enc s.codec.negKeyOrder v)))) := by
  calc exec (.encode v) s = .next (s.answer (encodeResult s.codec v)) := rfl
    _ = .next (s.answer (.ok (.encoded (enc s.codec.negKeyOrder v)))) := by rw [encodeResult, h]

theorem encValues_eq_flatten (ord : NegKeyOrder) :
    (vs : LogicalValues) → encValues ord vs = (vs.toList.map (enc ord)).flatten
  | .nil => by simp [encValues, LogicalValues.toList]
  | .cons v vs => by simp [encValues, LogicalValues.toList, encValues_eq_flatten ord vs]

/-- R115, over the elements as a list. -/
theorem enc_array (ord : NegKeyOrder) (vs : LogicalValues) :
    enc ord (.array vs) = head 4 vs.toList.length ++ (vs.toList.map (enc ord)).flatten := by
  rw [enc, encValues_eq_flatten, LogicalValues.length_toList]

/-- Settles O31: ENCODE answers `enc` of an array the check accepts, and `enc` writes the head, then each element. -/
theorem encodeArrays : Obligations.EncodeArrays := by
  intro s vs hcheck
  rw [exec_encode_of_check_eq_none hcheck, enc_array]

end Sys2Proof.Machine
end

section
/-! SUPPORT. DECODE of a non-empty input is the reading of the item at its first octet (spec/41_cbor_decode.md R150,
R151), and the two octets that are whole booleans (R161). -/

namespace Sys2Proof.Machine

/-- The outermost item stands at depth 1, which every MAX_DEPTH but 0 admits (R151). -/
theorem tooDeep_one_eq_false {cfg : CodecConfig} (h : cfg.maxDepth ≠ some 0) : tooDeep cfg 1 = false := by
  refine depthOk_iff.1 fun k hk => Nat.pos_of_ne_zero ?_
  rintro rfl
  exact h hk

/-- R150, R151 on a non-empty input: its first octet is the initial octet of the first item. -/
theorem firstItem_cons {cfg : CodecConfig} (h : cfg.maxDepth ≠ some 0) (ib : Byte) (tail : Octets) :
    firstItem cfg (ib :: tail) =
      readItem cfg (item cfg (ib :: tail) ((ib :: tail).length + 1) · 2) (ib :: tail) 0 ib := by
  rw [firstItem, item_eq, tooDeep_one_eq_false h]
  rfl

/-- R161: the octets F4 and F5 pass the check of R153 and have major type 7, so the boolean rule reads them. -/
theorem readItem_boolean (cfg : CodecConfig) (rd : Nat → Read (LogicalValue × Nat)) (b : Octets) (p : Nat) {ib : Byte}
    (hib : ib = 0xF4 ∨ ib = 0xF5) : readItem cfg rd b p ib = .ok (.bool (ib == 0xF5), p + 1) := by
  obtain rfl | rfl := hib <;> rfl

/-- A boolean octet at the start of the input decides the answer; the octets after it are not read. -/
theorem decodeOp_boolean_cons {s : State} (h : s.codec.maxDepth ≠ some 0) {ib : Byte} (hib : ib = 0xF4 ∨ ib = 0xF5)
    (tail : Octets) : decodeOp (ib :: tail) s = .next (s.answer (.ok (.decoded (.bool (ib == 0xF5)) 1))) := by
  rw [decodeOp, decodeResult, firstItem_cons h, readItem_boolean s.codec _ _ _ hib]

/-- Settles O17: each row is the DECODE of its octet and the tail, and that octet is a whole item. -/
theorem booleanRows : Obligations.BooleanRows := by
  intro s tail hdepth
  constructor
  · calc exec (.cborFalse tail) s = decodeOp (0xF4 :: tail) s := exec_eq_decodeOp_of_format_cbor rfl s
      _ = .next (s.answer (.ok (.decoded (.bool false) 1))) := decodeOp_boolean_cons hdepth (.inl rfl) tail
  · calc exec (.cborTrue tail) s = decodeOp (0xF5 :: tail) s := exec_eq_decodeOp_of_format_cbor rfl s
      _ = .next (s.answer (.ok (.decoded (.bool true) 1))) := decodeOp_boolean_cons hdepth (.inr rfl) tail

end Sys2Proof.Machine
end

section
/-! SUPPORT. HANDLE where it meets an `Idle` record: one equation per test of a packet, and the answer to an INIT in one
packet (spec/42_hid_reassembly.md R191-R196, R207, R220-R223). -/

namespace Sys2Proof.Machine

/-! ## The tests of a packet in their order -/

/-- The test of R195 as the machine writes it. -/
theorem unallocatedTest_iff {cs : List Cid} {c : Cid} :
    (c ≠ broadcastCid && !hasChannel cs c) = true ↔ ¬ (c = broadcastCid ∨ c ∈ cs) := by
  simp [hasChannel]

/-- R192. -/
theorem idlePacket_short {pkt : Octets} (hshort : pkt.length < initHdr) (s : State) :
    idlePacket pkt s = deliverError errOther s := if_pos hshort

/-- R193. -/
theorem idlePacket_continuation {pkt : Octets} (hlen : initHdr ≤ pkt.length) (hcont : isInitPacket pkt = false)
    (s : State) : idlePacket pkt s = deliverError errInvalidCmd s := by
  rw [idlePacket, if_neg (Nat.not_lt.2 hlen), if_pos (by rw [hcont]; rfl)]

/-- R195. -/
theorem idlePacket_unallocated {pkt : Octets} {s : State} (hlen : initHdr ≤ pkt.length)
    (hinit : isInitPacket pkt = true) (hcid : ¬ (pktCid pkt = broadcastCid ∨ pktCid pkt ∈ s.framer.channels)) :
    idlePacket pkt s = deliverError errInvalidChannel s := by
  rw [idlePacket, if_neg (Nat.not_lt.2 hlen), if_neg (by simp [hinit]), if_pos (unallocatedTest_iff.2 hcid)]

/-- R194, R196: a packet that passes the three tests starts a message. -/
theorem idlePacket_admitted {pkt : Octets} {s : State} (hlen : initHdr ≤ pkt.length)
    (hinit : isInitPacket pkt = true) (hcid : pktCid pkt = broadcastCid ∨ pktCid pkt ∈ s.framer.channels) :
    idlePacket pkt s = assemble (startAssembly pkt s.clock) s := by
  rw [idlePacket, if_neg (Nat.not_lt.2 hlen), if_neg (by simp [hinit]),
    if_neg fun htest => unallocatedTest_iff.1 htest hcid]

/-! ## A packet from its parts -/

/-- Octets 5 and 6 complete the header of an initialization packet (R80). -/
theorem initHdr_le_length_packetOf (cid : Cid) (k : Byte) {tail : Octets} (h : 2 ≤ tail.length) :
    initHdr ≤ (packetOf cid k tail).length := by
  rw [length_packetOf]
  exact Nat.add_le_add_right h 5

/-- A packet has room for 59 octets after its octet 4 (R81). -/
theorem length_packetOf_le (cid : Cid) (k : Byte) {tail : Octets} (h : tail.length ≤ 59) :
    (packetOf cid k tail).length ≤ 64 := by
  rw [length_packetOf]
  omega

/-- The fields of a first packet, each at its place (R80, R83, R196). -/
theorem startAssembly_packetOf (cid : Cid) (cmd : BitVec 7) (hi lo : Byte) (data : Octets) (now : Int) :
    startAssembly (packetOf cid (initOctet cmd) (hi :: lo :: data)) now =
      ⟨cid, cmd, hi ++ lo, data.take (hi ++ lo).toNat, none, now⟩ := by
  simp [startAssembly]

/-! ## HANDLE at an `Idle` record -/

/-- A timed-out record and an `Idle` one are handled alike: the packet meets `Idle` after one clock sample (R191). -/
theorem handleOp_of_meetsIdle {s : State} {pkt : Octets} (hidle : s.MeetsIdle) (hmax : pkt.length ≤ 64) :
    handleOp pkt s = finishHandle (idlePacket pkt (s.sampleClock.setSt .idle)) := by
  obtain ⟨hlong, -⟩ | ⟨-, hhandle⟩ := handleOp_cases pkt s
  · omega
  · rw [hhandle, applyTimeout_idle hidle]
    rfl

/-- An error of a packet that meets `Idle` goes to the broadcast channel, and the record stays `Idle` (R207). -/
theorem handleOp_error_of_meetsIdle {s : State} {pkt : Octets} {code : Byte} (hidle : s.MeetsIdle)
    (hmax : pkt.length ≤ 64)
    (herror : idlePacket pkt (s.sampleClock.setSt .idle) = deliverError code (s.sampleClock.setSt .idle)) :
    handleOp pkt s = .next (s.handledTo .idle (.complete ⟨broadcastCid, cmdError, [code]⟩)) := by
  rw [handleOp_of_meetsIdle hidle hmax, herror]
  rfl

/-- Settles O36: the length is the first test, so octet 4 does not matter. -/
theorem idleShortPacket : Obligations.IdleShortPacket := by
  intro s pkt hidle hshort
  exact handleOp_error_of_meetsIdle hidle (by omega) (idlePacket_short hshort _)

/-- Settles O37: the packet is long enough, and octet 4 of a continuation packet has its high bit clear. -/
theorem idleContinuationPacket : Obligations.IdleContinuationPacket := by
  intro s cid seq tail hidle hmin hmax
  exact handleOp_error_of_meetsIdle hidle (length_packetOf_le cid (contOctet seq) hmax)
    (idlePacket_continuation (initHdr_le_length_packetOf cid _ hmin) (contOctet_msb seq) _)

/-- Settles O38: every command's row handles an initialization packet, and the channel test does not read the
command. -/
theorem idleUnallocatedChannel : Obligations.IdleUnallocatedChannel := by
  intro s cid cmd tail hidle hmin hmax hbroadcast hcid
  rw [exec_decodeCommand]
  exact handleOp_error_of_meetsIdle hidle (length_packetOf_le cid _ hmax)
    (idlePacket_unallocated (initHdr_le_length_packetOf cid _ hmin) (initOctet_msb cmd) (not_or.2 ⟨hbroadcast, hcid⟩))

/-! ## INIT in one packet -/

/-- An initialization packet on an admitted channel goes to the completion test with the record of its own fields
(R194, R196). -/
theorem handleOp_initPacket_admitted {s : State} {cid : Cid} {data : Octets} (hidle : s.MeetsIdle)
    (hmax : data.length ≤ 57) (hcid : cid = broadcastCid ∨ cid ∈ s.framer.channels) (cmd : BitVec 7) (hi lo : Byte) :
    handleOp (packetOf cid (initOctet cmd) (hi :: lo :: data)) s =
      finishHandle (assemble ⟨cid, cmd, hi ++ lo, data.take (hi ++ lo).toNat, none, s.clock⟩ s.sampleClock) := by
  have hmin : 2 ≤ (hi :: lo :: data).length := Nat.le_add_left 2 data.length
  have hmax' : (hi :: lo :: data).length ≤ 59 := Nat.add_le_add_right hmax 2
  rw [← startAssembly_packetOf, handleOp_of_meetsIdle hidle (length_packetOf_le cid _ hmax')]
  exact congrArg finishHandle
    (idlePacket_admitted (initHdr_le_length_packetOf cid _ hmin) (initOctet_msb cmd) hcid)

/-- A complete record of command INIT on an allocated channel: the response names that channel (R202, R204, R223). -/
theorem completeOrProgress_init_allocated {a : Assembly} {s : State} (hcmd : a.cmd = cmdInit)
    (hbroadcast : a.cid ≠ broadcastCid) (hcid : a.cid ∈ s.framer.channels) (hmin : 8 ≤ a.bcnt.toNat)
    (hfull : a.bcnt.toNat ≤ a.received.length) : completeOrProgress a s = deliverInit a a.cid s := by
  have hallowed : completionAllowed s.framer.channels a.cmd a.cid = true := by
    simp [completionAllowed, hcmd, hasChannel_iff, hcid]
  rw [completeOrProgress, if_neg (Nat.not_lt.2 hfull), if_pos hallowed, if_pos hcmd, initComplete,
    if_neg (Nat.not_lt.2 hmin), if_neg hbroadcast]

/-- The 17 octets of R222, where the nonce is the first 8 of the payload octets the record kept. -/
theorem initResponse_take (c : FramerConfig) (rcid : Cid) {n : Nat} (h : 8 ≤ n) (data : Octets) :
    initResponse c (slice (data.take n) 0 8) rcid =
      data.take 8 ++ [rcid.o0, rcid.o1, rcid.o2, rcid.o3, 0x02, c.vmaj, c.vmin, c.build, 0x0D] := by
  have hnonce : slice (data.take n) 0 8 = data.take 8 := by simp [slice, List.take_take, h]
  rw [initResponse, hnonce, List.append_assoc]
  rfl

/-- Settles O44: the packet makes a complete record of command INIT, and its channel is echoed without a draw. -/
theorem initOnAllocatedChannel : Obligations.InitOnAllocatedChannel := by
  intro s cid hi lo data hidle hmax hbroadcast hcid hmin hfull
  rw [← toNat_bcnt] at hmin hfull
  have hreceived : (hi ++ lo).toNat ≤ (data.take (hi ++ lo).toNat).length := by
    rw [List.length_take]
    exact Nat.le_min.2 ⟨Nat.le_refl _, hfull⟩
  calc exec (.ctaphidInit cid (hi :: lo :: data)) s
      = finishHandle (assemble ⟨cid, cmdInit, hi ++ lo, data.take (hi ++ lo).toNat, none, s.clock⟩ s.sampleClock) :=
        handleOp_initPacket_admitted hidle hmax (.inr hcid) cmdInit hi lo
    _ = .next (s.handledTo .idle (.complete ⟨cid, cmdInit,
          initResponse s.framer.config (slice (data.take (hi ++ lo).toNat) 0 8) cid⟩)) := by
        rw [assemble, completeOrProgress_init_allocated rfl hbroadcast hcid hmin hreceived]
        rfl
    _ = _ := by
        rw [initResponse_take s.framer.config cid hmin data]
        rfl

end Sys2Proof.Machine
end

section
/-! SUPPORT. The three encodings and their decoder: the row of each initial octet, packets and host operations, and the
two directions between a request and its instruction (spec/30_encoding.md R70, R71, R78, R80-R82, R90, R95-R99). -/

namespace Sys2Proof.Machine

/-! ## The fields of an initial octet -/

@[simp] theorem majorType_initialOctet (mt : BitVec 3) (ai : BitVec 5) : majorType (initialOctet mt ai) = mt := by
  revert mt ai
  decide

@[simp] theorem additionalInfo_initialOctet (mt : BitVec 3) (ai : BitVec 5) :
    additionalInfo (initialOctet mt ai) = ai := by
  revert mt ai
  decide

@[simp] theorem initialOctet_fields (ib : Byte) : initialOctet (majorType ib) (additionalInfo ib) = ib := by
  revert ib
  decide

/-- An initial octet whose additional information is `h` followed by the operand bits `x` of a row: the row's encoding
is the fixed bits, then the operand. -/
theorem initialOctet_append4 (mt : BitVec 3) (h : BitVec 1) (x : BitVec 4) :
    initialOctet mt (h ++ x) = ((mt ++ h) ++ x : BitVec (3 + 1 + 4)) := by
  revert mt h x
  decide

theorem initialOctet_append3 (mt : BitVec 3) (h : BitVec 2) (x : BitVec 3) :
    initialOctet mt (h ++ x) = ((mt ++ h) ++ x : BitVec (3 + 2 + 3)) := by
  revert mt h x
  decide

theorem initialOctet_append2 (mt : BitVec 3) (h : BitVec 3) (x : BitVec 2) :
    initialOctet mt (h ++ x) = ((mt ++ h) ++ x : BitVec (3 + 3 + 2)) := by
  revert mt h x
  decide

theorem initialOctet_append1 (mt : BitVec 3) (h : BitVec 4) (x : BitVec 1) :
    initialOctet mt (h ++ x) = ((mt ++ h) ++ x : BitVec (3 + 4 + 1)) := by
  revert mt h x
  decide

/-- The low operand bits of an additional information, and its number (R70). -/
theorem append4_fields (h : BitVec 1) (x : BitVec 4) :
    (h ++ x : BitVec 5).toNat = 16 * h.toNat + x.toNat ∧ (h ++ x : BitVec 5).setWidth 4 = x := by
  revert h x
  decide

theorem append3_fields (h : BitVec 2) (x : BitVec 3) :
    (h ++ x : BitVec 5).toNat = 8 * h.toNat + x.toNat ∧ (h ++ x : BitVec 5).setWidth 3 = x := by
  revert h x
  decide

theorem append2_fields (h : BitVec 3) (x : BitVec 2) :
    (h ++ x : BitVec 5).toNat = 4 * h.toNat + x.toNat ∧ (h ++ x : BitVec 5).setWidth 2 = x := by
  revert h x
  decide

theorem append1_fields (h : BitVec 4) (x : BitVec 1) :
    (h ++ x : BitVec 5).toNat = 2 * h.toNat + x.toNat ∧ (h ++ x : BitVec 5).setWidth 1 = x := by
  revert h x
  decide

/-- The fixed bits are what is left of the number. -/
theorem eq_append4 {ai : BitVec 5} (h : BitVec 1) (hh : ai.toNat / 16 = h.toNat) : h ++ ai.setWidth 4 = ai := by
  revert ai h
  decide

theorem eq_append3 {ai : BitVec 5} (h : BitVec 2) (hh : ai.toNat / 8 = h.toNat) : h ++ ai.setWidth 3 = ai := by
  revert ai h
  decide

theorem eq_append2 {ai : BitVec 5} (h : BitVec 3) (hh : ai.toNat / 4 = h.toNat) : h ++ ai.setWidth 2 = ai := by
  revert ai h
  decide

theorem eq_append1 {ai : BitVec 5} (h : BitVec 4) (hh : ai.toNat / 2 = h.toNat) : h ++ ai.setWidth 1 = ai := by
  revert ai h
  decide

/-! ## Rows of initial octets -/

/-- The seven rows of a major type 0..5: how the decoder selects among them, and the initial octets that encode them
(R71). -/
structure MajorRows (mt : BitVec 3) (imm : BitVec 4 → Octets → Instr) (imm16 : BitVec 3 → Octets → Instr)
    (arg8 arg16 arg32 arg64 : Octets → Instr) (rsvd : BitVec 2 → Octets → Instr) : Prop where
  select : ∀ ai tail, decodeInitial (initialOctet mt ai) tail =
    decodeAi imm imm16 arg8 arg16 arg32 arg64 rsvd ai tail := by
    intro ai tail
    rw [decodeInitial, majorType_initialOctet, additionalInfo_initialOctet]
    rfl
  imm : ∀ x tail, encodeInstr (imm x tail) = cborWire (initialOctet mt (0#1 ++ x)) tail
  imm16 : ∀ x tail, encodeInstr (imm16 x tail) = cborWire (initialOctet mt (2#2 ++ x)) tail
  arg8 : ∀ tail, encodeInstr (arg8 tail) = cborWire (initialOctet mt 24) tail := by exact fun _ => rfl
  arg16 : ∀ tail, encodeInstr (arg16 tail) = cborWire (initialOctet mt 25) tail := by exact fun _ => rfl
  arg32 : ∀ tail, encodeInstr (arg32 tail) = cborWire (initialOctet mt 26) tail := by exact fun _ => rfl
  arg64 : ∀ tail, encodeInstr (arg64 tail) = cborWire (initialOctet mt 27) tail := by exact fun _ => rfl
  rsvd : ∀ x tail, encodeInstr (rsvd x tail) = cborWire (initialOctet mt (7#3 ++ x)) tail

theorem majorRows_uint : MajorRows 0 .uintImm0to15 .uintImm16to23 .uintArg8 .uintArg16 .uintArg32 .uintArg64
    .uintRsvdAi28to31 where
  imm x tail := congrArg (cborWire · tail) (initialOctet_append4 0 0 x).symm
  imm16 x tail := congrArg (cborWire · tail) (initialOctet_append3 0 2 x).symm
  rsvd x tail := congrArg (cborWire · tail) (initialOctet_append2 0 7 x).symm

theorem majorRows_nint : MajorRows 1 .nintImm0to15 .nintImm16to23 .nintArg8 .nintArg16 .nintArg32 .nintArg64
    .nintRsvdAi28to31 where
  imm x tail := congrArg (cborWire · tail) (initialOctet_append4 1 0 x).symm
  imm16 x tail := congrArg (cborWire · tail) (initialOctet_append3 1 2 x).symm
  rsvd x tail := congrArg (cborWire · tail) (initialOctet_append2 1 7 x).symm

theorem majorRows_bstr : MajorRows 2 .bstrImm0to15 .bstrImm16to23 .bstrArg8 .bstrArg16 .bstrArg32 .bstrArg64
    .bstrRsvdAi28to31 where
  imm x tail := congrArg (cborWire · tail) (initialOctet_append4 2 0 x).symm
  imm16 x tail := congrArg (cborWire · tail) (initialOctet_append3 2 2 x).symm
  rsvd x tail := congrArg (cborWire · tail) (initialOctet_append2 2 7 x).symm

theorem majorRows_tstr : MajorRows 3 .tstrImm0to15 .tstrImm16to23 .tstrArg8 .tstrArg16 .tstrArg32 .tstrArg64
    .tstrRsvdAi28to31 where
  imm x tail := congrArg (cborWire · tail) (initialOctet_append4 3 0 x).symm
  imm16 x tail := congrArg (cborWire · tail) (initialOctet_append3 3 2 x).symm
  rsvd x tail := congrArg (cborWire · tail) (initialOctet_append2 3 7 x).symm

theorem majorRows_array : MajorRows 4 .arrayImm0to15 .arrayImm16to23 .arrayArg8 .arrayArg16 .arrayArg32 .arrayArg64
    .arrayRsvdAi28to31 where
  imm x tail := congrArg (cborWire · tail) (initialOctet_append4 4 0 x).symm
  imm16 x tail := congrArg (cborWire · tail) (initialOctet_append3 4 2 x).symm
  rsvd x tail := congrArg (cborWire · tail) (initialOctet_append2 4 7 x).symm

theorem majorRows_map : MajorRows 5 .mapImm0to15 .mapImm16to23 .mapArg8 .mapArg16 .mapArg32 .mapArg64
    .mapRsvdAi28to31 where
  imm x tail := congrArg (cborWire · tail) (initialOctet_append4 5 0 x).symm
  imm16 x tail := congrArg (cborWire · tail) (initialOctet_append3 5 2 x).symm
  rsvd x tail := congrArg (cborWire · tail) (initialOctet_append2 5 7 x).symm

section

variable {mt : BitVec 3} {imm : BitVec 4 → Octets → Instr} {imm16 : BitVec 3 → Octets → Instr}
  {arg8 arg16 arg32 arg64 : Octets → Instr} {rsvd : BitVec 2 → Octets → Instr}

/-- The row an additional information selects is encoded by that additional information. -/
theorem MajorRows.encodeInstr_decodeInitial (h : MajorRows mt imm imm16 arg8 arg16 arg32 arg64 rsvd) (ai : BitVec 5)
    (tail : Octets) :
    encodeInstr (decodeInitial (initialOctet mt ai) tail) = cborWire (initialOctet mt ai) tail := by
  have hval : ∀ n : Nat, ai.toNat = n → BitVec.ofNat 5 n = ai := by
    rintro _ rfl
    rw [BitVec.ofNat_toNat, BitVec.setWidth_eq]
  have hlt := ai.isLt
  rw [h.select, decodeAi]
  split
  · rw [h.imm, eq_append4 0#1 (by rw [BitVec.toNat_ofNat]; omega)]
  split
  · rw [h.imm16, eq_append3 2#2 (by rw [BitVec.toNat_ofNat]; omega)]
  split
  · rw [h.arg8, ← hval 24 ‹_›]
    rfl
  split
  · rw [h.arg16, ← hval 25 ‹_›]
    rfl
  split
  · rw [h.arg32, ← hval 26 ‹_›]
    rfl
  split
  · rw [h.arg64, ← hval 27 ‹_›]
    rfl
  · rw [h.rsvd, eq_append2 7#3 (by rw [BitVec.toNat_ofNat]; omega)]

theorem MajorRows.decodeInitial_imm (h : MajorRows mt imm imm16 arg8 arg16 arg32 arg64 rsvd) (x : BitVec 4)
    (tail : Octets) : decodeInitial (initialOctet mt (0#1 ++ x)) tail = imm x tail := by
  obtain ⟨hn, hx⟩ := append4_fields 0#1 x
  rw [BitVec.toNat_ofNat] at hn
  have hlt := x.isLt
  rw [h.select, decodeAi, if_pos (by omega), hx]

theorem MajorRows.decodeInitial_imm16 (h : MajorRows mt imm imm16 arg8 arg16 arg32 arg64 rsvd) (x : BitVec 3)
    (tail : Octets) : decodeInitial (initialOctet mt (2#2 ++ x)) tail = imm16 x tail := by
  obtain ⟨hn, hx⟩ := append3_fields 2#2 x
  rw [BitVec.toNat_ofNat] at hn
  have hlt := x.isLt
  rw [h.select, decodeAi, if_neg (by omega), if_pos (by omega), hx]

theorem MajorRows.decodeInitial_rsvd (h : MajorRows mt imm imm16 arg8 arg16 arg32 arg64 rsvd) (x : BitVec 2)
    (tail : Octets) : decodeInitial (initialOctet mt (7#3 ++ x)) tail = rsvd x tail := by
  obtain ⟨hn, hx⟩ := append2_fields 7#3 x
  rw [BitVec.toNat_ofNat] at hn
  rw [h.select, decodeAi, if_neg (by omega), if_neg (by omega), if_neg (by omega), if_neg (by omega),
    if_neg (by omega), if_neg (by omega), hx]

theorem MajorRows.decode_imm (h : MajorRows mt imm imm16 arg8 arg16 arg32 arg64 rsvd) (x : BitVec 4) (tail : Octets) :
    decodeWire (encodeInstr (imm x tail)) = .ok (imm x tail) := by
  rw [h.imm]
  exact congrArg Except.ok (h.decodeInitial_imm x tail)

theorem MajorRows.decode_imm16 (h : MajorRows mt imm imm16 arg8 arg16 arg32 arg64 rsvd) (x : BitVec 3)
    (tail : Octets) : decodeWire (encodeInstr (imm16 x tail)) = .ok (imm16 x tail) := by
  rw [h.imm16]
  exact congrArg Except.ok (h.decodeInitial_imm16 x tail)

theorem MajorRows.decode_rsvd (h : MajorRows mt imm imm16 arg8 arg16 arg32 arg64 rsvd) (x : BitVec 2)
    (tail : Octets) : decodeWire (encodeInstr (rsvd x tail)) = .ok (rsvd x tail) := by
  rw [h.rsvd]
  exact congrArg Except.ok (h.decodeInitial_rsvd x tail)

end

/-- The one row of tags takes every additional information (R97). -/
theorem decodeInitial_tag (ai : BitVec 5) (tail : Octets) :
    decodeInitial (initialOctet 6 ai) tail = .tagUnsupported ai tail := by
  rw [decodeInitial, majorType_initialOctet, additionalInfo_initialOctet]
  rfl

/-- The rows of major type 7 (R78). -/
theorem decodeInitial_simple (ai : BitVec 5) (tail : Octets) :
    decodeInitial (initialOctet 7 ai) tail = decodeSimple ai tail := by
  rw [decodeInitial, majorType_initialOctet, additionalInfo_initialOctet]
  rfl

/-- The rows of major type 7 with operand bits, each with its fixed bits (R78). -/
theorem encodeInstr_simpleE0 (x : BitVec 4) (tail : Octets) :
    encodeInstr (.simpleE0toEFInvalid x tail) = cborWire (initialOctet 7 (0#1 ++ x)) tail :=
  congrArg (cborWire · tail) (initialOctet_append4 7 0 x).symm

theorem encodeInstr_simpleF0 (x : BitVec 2) (tail : Octets) :
    encodeInstr (.simpleF0toF3Invalid x tail) = cborWire (initialOctet 7 (4#3 ++ x)) tail :=
  congrArg (cborWire · tail) (initialOctet_append2 7 4 x).symm

theorem encodeInstr_simpleF6 (x : BitVec 1) (tail : Octets) :
    encodeInstr (.simpleF6toF7Invalid x tail) = cborWire (initialOctet 7 (11#4 ++ x)) tail :=
  congrArg (cborWire · tail) (initialOctet_append1 7 11 x).symm

theorem encodeInstr_simpleF8 (x : BitVec 2) (tail : Octets) :
    encodeInstr (.simpleF8toFBInvalid x tail) = cborWire (initialOctet 7 (6#3 ++ x)) tail :=
  congrArg (cborWire · tail) (initialOctet_append2 7 6 x).symm

theorem encodeInstr_simpleFC (x : BitVec 2) (tail : Octets) :
    encodeInstr (.simpleFCtoFFInvalid x tail) = cborWire (initialOctet 7 (7#3 ++ x)) tail :=
  congrArg (cborWire · tail) (initialOctet_append2 7 7 x).symm

theorem decodeSimple_append4 (x : BitVec 4) (tail : Octets) :
    decodeSimple (0#1 ++ x) tail = .simpleE0toEFInvalid x tail := by
  obtain ⟨hn, hx⟩ := append4_fields 0#1 x
  rw [BitVec.toNat_ofNat] at hn
  have hlt := x.isLt
  rw [decodeSimple, if_pos (by omega), hx]

theorem decodeSimple_append2_16 (x : BitVec 2) (tail : Octets) :
    decodeSimple (4#3 ++ x) tail = .simpleF0toF3Invalid x tail := by
  obtain ⟨hn, hx⟩ := append2_fields 4#3 x
  rw [BitVec.toNat_ofNat] at hn
  have hlt := x.isLt
  rw [decodeSimple, if_neg (by omega), if_pos (by omega), hx]

theorem decodeSimple_append1 (x : BitVec 1) (tail : Octets) :
    decodeSimple (11#4 ++ x) tail = .simpleF6toF7Invalid x tail := by
  obtain ⟨hn, hx⟩ := append1_fields 11#4 x
  rw [BitVec.toNat_ofNat] at hn
  have hlt := x.isLt
  rw [decodeSimple, if_neg (by omega), if_neg (by omega), if_neg (by omega), if_neg (by omega), if_pos (by omega), hx]

theorem decodeSimple_append2_24 (x : BitVec 2) (tail : Octets) :
    decodeSimple (6#3 ++ x) tail = .simpleF8toFBInvalid x tail := by
  obtain ⟨hn, hx⟩ := append2_fields 6#3 x
  rw [BitVec.toNat_ofNat] at hn
  have hlt := x.isLt
  rw [decodeSimple, if_neg (by omega), if_neg (by omega), if_neg (by omega), if_neg (by omega), if_neg (by omega),
    if_pos (by omega), hx]

theorem decodeSimple_append2_28 (x : BitVec 2) (tail : Octets) :
    decodeSimple (7#3 ++ x) tail = .simpleFCtoFFInvalid x tail := by
  obtain ⟨hn, hx⟩ := append2_fields 7#3 x
  rw [BitVec.toNat_ofNat] at hn
  rw [decodeSimple, if_neg (by omega), if_neg (by omega), if_neg (by omega), if_neg (by omega), if_neg (by omega),
    if_neg (by omega), hx]

/-- The row an octet of major type 7 selects is encoded by that octet. -/
theorem encodeInstr_decodeSimple (ai : BitVec 5) (tail : Octets) :
    encodeInstr (decodeSimple ai tail) = cborWire (initialOctet 7 ai) tail := by
  have hval : ∀ n : Nat, ai.toNat = n → BitVec.ofNat 5 n = ai := by
    rintro _ rfl
    rw [BitVec.ofNat_toNat, BitVec.setWidth_eq]
  have hlt := ai.isLt
  rw [decodeSimple]
  split
  · rw [encodeInstr_simpleE0, eq_append4 0#1 (by rw [BitVec.toNat_ofNat]; omega)]
  split
  · rw [encodeInstr_simpleF0, eq_append2 4#3 (by rw [BitVec.toNat_ofNat]; omega)]
  split
  · rw [← hval 20 ‹_›]
    rfl
  split
  · rw [← hval 21 ‹_›]
    rfl
  split
  · rw [encodeInstr_simpleF6, eq_append1 11#4 (by rw [BitVec.toNat_ofNat]; omega)]
  split
  · rw [encodeInstr_simpleF8, eq_append2 6#3 (by rw [BitVec.toNat_ofNat]; omega)]
  · rw [encodeInstr_simpleFC, eq_append2 7#3 (by rw [BitVec.toNat_ofNat]; omega)]

/-! ## CBOR streams -/

/-- Every initial octet is the encoding of its row (R97). -/
theorem encodeInstr_decodeInitial (ib : Byte) (tail : Octets) :
    encodeInstr (decodeInitial ib tail) = cborWire ib tail := by
  rw [← initialOctet_fields ib]
  generalize additionalInfo ib = ai
  match majorType ib with
  | 0 => exact majorRows_uint.encodeInstr_decodeInitial ai tail
  | 1 => exact majorRows_nint.encodeInstr_decodeInitial ai tail
  | 2 => exact majorRows_bstr.encodeInstr_decodeInitial ai tail
  | 3 => exact majorRows_tstr.encodeInstr_decodeInitial ai tail
  | 4 => exact majorRows_array.encodeInstr_decodeInitial ai tail
  | 5 => exact majorRows_map.encodeInstr_decodeInitial ai tail
  | 6 =>
    rw [decodeInitial_tag]
    rfl
  | 7 => rw [decodeInitial_simple, encodeInstr_decodeSimple]

/-! ## Packets and host operations -/

/-- A packet of at most 64 octets with an octet 4 is read by it (R82). -/
theorem decodePacket_packetOf (cid : Cid) (k : Byte) {tail : Octets} (hmax : tail.length ≤ 59) :
    decodePacket (packetOf cid k tail) =
      .ok (if k.msb then decodeCommand cid (k.setWidth 7) tail else .ctaphidContPacket cid (k.setWidth 7) tail) := by
  have hlen := length_packetOf cid k tail
  rw [decodePacket, if_neg (by omega), if_neg (by rw [pktSize]; omega), isInitPacket_packetOf]
  split <;> rfl

theorem decodeWire_initWire (cid : Cid) (cmd : BitVec 7) {tail : Octets} (hmax : packetTailOk tail = true) :
    decodeWire (initWire cid cmd tail) = .ok (decodeCommand cid cmd tail) := by
  have h := decodePacket_packetOf cid (initOctet cmd) (of_decide_eq_true hmax)
  rw [initOctet_msb, if_pos rfl, initOctet_low] at h
  exact h

/-- A command the table R90 does not list belongs to the row for such commands (R98). -/
theorem decodeCommand_unlisted {cmd : BitVec 7} (h : listedCommands.contains cmd = false) (cid : Cid) (tail : Octets) :
    decodeCommand cid cmd tail = .ctaphidInitPacketOtherCmd cid cmd tail := by
  simp only [listedCommands, List.contains_eq_mem, decide_eq_false_iff_not, List.mem_cons, List.not_mem_nil, or_false,
    not_or] at h
  simp [decodeCommand, h]

/-- Every command's row encodes the packet of that command. -/
theorem encodeInstr_decodeCommand (cid : Cid) (cmd : BitVec 7) (tail : Octets) :
    encodeInstr (decodeCommand cid cmd tail) = initWire cid cmd tail := by
  unfold decodeCommand
  repeat' split
  all_goals (subst_vars; rfl)

theorem wf_decodeCommand (cid : Cid) (cmd : BitVec 7) (tail : Octets) :
    (decodeCommand cid cmd tail).wf = packetTailOk tail := by
  cases hlisted : listedCommands.contains cmd with
  | false => rw [decodeCommand_unlisted hlisted, Instr.wf, hlisted, Bool.not_false, Bool.and_true]
  | true =>
    rw [List.contains_iff_mem] at hlisted
    fin_cases hlisted <;> rfl

/-- Settles O1: the octets of each row select that row, and the tail and the operands are copied. -/
theorem decodeEncodeRoundTrip : Obligations.DecodeEncodeRoundTrip := by
  intro i hwf
  cases i with
  | uintImm0to15 ai tail => exact majorRows_uint.decode_imm ai tail
  | nintImm0to15 ai tail => exact majorRows_nint.decode_imm ai tail
  | bstrImm0to15 ai tail => exact majorRows_bstr.decode_imm ai tail
  | tstrImm0to15 ai tail => exact majorRows_tstr.decode_imm ai tail
  | arrayImm0to15 ai tail => exact majorRows_array.decode_imm ai tail
  | mapImm0to15 ai tail => exact majorRows_map.decode_imm ai tail
  | uintImm16to23 lo tail => exact majorRows_uint.decode_imm16 lo tail
  | nintImm16to23 lo tail => exact majorRows_nint.decode_imm16 lo tail
  | bstrImm16to23 lo tail => exact majorRows_bstr.decode_imm16 lo tail
  | tstrImm16to23 lo tail => exact majorRows_tstr.decode_imm16 lo tail
  | arrayImm16to23 lo tail => exact majorRows_array.decode_imm16 lo tail
  | mapImm16to23 lo tail => exact majorRows_map.decode_imm16 lo tail
  | uintRsvdAi28to31 lo tail => exact majorRows_uint.decode_rsvd lo tail
  | nintRsvdAi28to31 lo tail => exact majorRows_nint.decode_rsvd lo tail
  | bstrRsvdAi28to31 lo tail => exact majorRows_bstr.decode_rsvd lo tail
  | tstrRsvdAi28to31 lo tail => exact majorRows_tstr.decode_rsvd lo tail
  | arrayRsvdAi28to31 lo tail => exact majorRows_array.decode_rsvd lo tail
  | mapRsvdAi28to31 lo tail => exact majorRows_map.decode_rsvd lo tail
  | tagUnsupported ai tail => exact congrArg Except.ok (decodeInitial_tag ai tail)
  | simpleE0toEFInvalid lo tail =>
    rw [encodeInstr_simpleE0]
    exact congrArg Except.ok ((decodeInitial_simple _ tail).trans (decodeSimple_append4 lo tail))
  | simpleF0toF3Invalid lo tail =>
    rw [encodeInstr_simpleF0]
    exact congrArg Except.ok ((decodeInitial_simple _ tail).trans (decodeSimple_append2_16 lo tail))
  | simpleF6toF7Invalid lo tail =>
    rw [encodeInstr_simpleF6]
    exact congrArg Except.ok ((decodeInitial_simple _ tail).trans (decodeSimple_append1 lo tail))
  | simpleF8toFBInvalid lo tail =>
    rw [encodeInstr_simpleF8]
    exact congrArg Except.ok ((decodeInitial_simple _ tail).trans (decodeSimple_append2_24 lo tail))
  | simpleFCtoFFInvalid lo tail =>
    rw [encodeInstr_simpleFC]
    exact congrArg Except.ok ((decodeInitial_simple _ tail).trans (decodeSimple_append2_28 lo tail))
  | uintArg8 | uintArg16 | uintArg32 | uintArg64 | nintArg8 | nintArg16 | nintArg32 | nintArg64
  | bstrArg8 | bstrArg16 | bstrArg32 | bstrArg64 | tstrArg8 | tstrArg16 | tstrArg32 | tstrArg64
  | arrayArg8 | arrayArg16 | arrayArg32 | arrayArg64 | mapArg8 | mapArg16 | mapArg32 | mapArg64
  | cborFalse | cborTrue => rfl
  | ctaphidPing cid | ctaphidMsg cid | ctaphidLock cid | ctaphidInit cid | ctaphidWink cid | ctaphidCbor cid
  | ctaphidCancel cid | ctaphidKeepalive cid | ctaphidError cid => exact decodeWire_initWire cid _ hwf
  | ctaphidInitPacketOtherCmd cid cmd tail =>
    obtain ⟨htail, hcmd⟩ := Bool.and_eq_true_iff.1 hwf
    exact (decodeWire_initWire cid cmd htail).trans
      (congrArg Except.ok (decodeCommand_unlisted ((Bool.not_eq_true' _).mp hcmd) cid tail))
  | ctaphidContPacket cid seq tail =>
    have h := decodePacket_packetOf cid (contOctet seq) (of_decide_eq_true hwf : tail.length ≤ 59)
    rwa [contOctet_msb, contOctet_low] at h
  | reset | encode | decode | decodeAll | isBroadcast | isValid => rfl
  | handle pkt => exact if_neg (Nat.not_lt.2 (of_decide_eq_true hwf))
  | emit cmd cid payload =>
    calc decodeWire (encodeInstr (.emit cmd cid payload))
        = if (contOctet cmd).msb then .error (.commandWidth (contOctet cmd))
          else .ok (.emit ((contOctet cmd).setWidth 7) cid payload) := rfl
      _ = .ok (.emit cmd cid payload) := by rw [contOctet_msb, contOctet_low, if_neg Bool.false_ne_true]
  | hostOpRefused code =>
    revert code
    decide

/-! ## From the request to the instruction and back -/

theorem initOctet_setWidth {k : Byte} (h : k.msb = true) : initOctet (k.setWidth 7) = k := by
  revert k
  decide

theorem contOctet_setWidth {k : Byte} (h : k.msb = false) : contOctet (k.setWidth 7) = k := by
  revert k
  decide

/-- A packet of at least 5 octets, taken apart. -/
theorem packetOf_parts {pkt : Octets} (h : 5 ≤ pkt.length) :
    packetOf (pktCid pkt) (octetAt pkt 4) (pkt.drop 5) = pkt := by
  match pkt, h with
  | _ :: _ :: _ :: _ :: _ :: _, _ => rfl

/-- The rows of the CBOR initial octet are bounded by their types. -/
theorem wf_of_format_cbor {i : Instr} (h : (encodeInstr i).format = .cbor) : i.wf = true := by
  cases i with
  | ctaphidPing | ctaphidMsg | ctaphidLock | ctaphidInit | ctaphidWink | ctaphidCbor | ctaphidCancel
  | ctaphidKeepalive | ctaphidError | ctaphidInitPacketOtherCmd | ctaphidContPacket
  | reset | encode | decode | decodeAll | handle | emit | isBroadcast | isValid | hostOpRefused => nomatch h
  | _ => rfl

/-- What it means that an instruction was read from a request. -/
def ReadFrom (w : Wire) (i : Instr) : Prop :=
  i.wf = true ∧ (encodeInstr i).format = w.format ∧
    ((∀ code, i ≠ .hostOpRefused code) → (encodeInstr i).octets = w.octets) ∧ ∀ v, i = .encode v → v = w.tree

/-- A decoder result that encodes to the very request. -/
theorem readFrom_of_encodeInstr {f : Format} {o : Octets} {t : LogicalValue} {i : Instr} (hwf : i.wf = true)
    (h : encodeInstr i = .plain f o) (hf : f ≠ .hostOp) : ReadFrom ⟨f, o, t⟩ i := by
  refine ⟨hwf, by rw [h]; rfl, fun _ => by rw [h]; rfl, ?_⟩
  rintro v rfl
  exact absurd (congrArg Wire.format h).symm hf

theorem readFrom_cbor {o : Octets} {t : LogicalValue} {i : Instr} (h : decodeCbor o = .ok i) :
    ReadFrom ⟨.cbor, o, t⟩ i := by
  cases o with
  | nil => cases h
  | cons ib tail =>
    cases h
    have henc := encodeInstr_decodeInitial ib tail
    exact readFrom_of_encodeInstr (wf_of_format_cbor (congrArg Wire.format henc)) henc (by decide)

theorem readFrom_ctaphid {pkt : Octets} {t : LogicalValue} {i : Instr} (h : decodePacket pkt = .ok i) :
    ReadFrom ⟨.ctaphid, pkt, t⟩ i := by
  unfold decodePacket at h
  split at h
  · cases h
  split at h
  · cases h
  rename_i hmin hmax
  have hparts := packetOf_parts (Nat.le_of_not_lt hmin)
  have htail : packetTailOk (pkt.drop 5) = true := by
    rw [packetTailOk, decide_eq_true_iff, List.length_drop]
    exact Nat.sub_le_sub_right (Nat.le_of_not_lt hmax) 5
  split at h
  · rename_i hinit
    cases h
    refine readFrom_of_encodeInstr ((wf_decodeCommand ..).trans htail) ?_ (by decide)
    rw [encodeInstr_decodeCommand]
    refine congrArg (Wire.plain .ctaphid) (Eq.trans ?_ hparts)
    rw [pktCmd, initOctet_setWidth hinit]
    rfl
  · rename_i hcont
    cases h
    refine readFrom_of_encodeInstr htail (congrArg (Wire.plain .ctaphid) (Eq.trans ?_ hparts)) (by decide)
    rw [pktSeq, contOctet_setWidth (Bool.eq_false_iff.2 hcont)]
    rfl

/-- The operand decoders of the host operations give back the operand octets. -/
theorem decodeBare_ok {i j : Instr} {code : Nat} {o : Octets} (h : decodeBare i code o = .ok j) : o = [] ∧ j = i := by
  cases o with
  | nil => exact ⟨rfl, by cases h; rfl⟩
  | cons => cases h

theorem decodeCid_ok {mk : Cid → Instr} {code : Nat} {o : Octets} {j : Instr} (h : decodeCid mk code o = .ok j) :
    ∃ cid, o = cidOctets cid ∧ j = mk cid := by
  unfold decodeCid at h
  split at h
  · cases h
    exact ⟨_, rfl, rfl⟩
  · cases h

theorem decodeEmit_ok {o : Octets} {j : Instr} (h : decodeEmit o = .ok j) :
    ∃ cmd cid payload, o = contOctet cmd :: (cidOctets cid ++ payload) ∧ j = .emit cmd cid payload := by
  unfold decodeEmit at h
  split at h
  · split at h
    · cases h
    · rename_i c o0 o1 o2 o3 payload hmsb
      cases h
      exact ⟨_, _, _, by rw [contOctet_setWidth (Bool.eq_false_iff.2 hmsb)]; rfl, rfl⟩
  · cases h

theorem readFrom_hostOp {o : Octets} {t : LogicalValue} {i : Instr} (h : decodeHostOp t o = .ok i) :
    ReadFrom ⟨.hostOp, o, t⟩ i := by
  cases o with
  | nil => cases h
  | cons op rest =>
    have hop : ∀ n : Nat, op.toNat = n → op = BitVec.ofNat 8 n := by
      rintro _ rfl
      rw [BitVec.ofNat_toNat, BitVec.setWidth_eq]
    simp only [decodeHostOp] at h
    split at h
    · rename_i hn
      obtain ⟨rfl, rfl⟩ := decodeBare_ok h
      exact ⟨rfl, rfl, fun _ => by rw [hop 0 hn]; rfl, nofun⟩
    · rename_i hn
      obtain ⟨rfl, rfl⟩ := decodeBare_ok h
      exact ⟨rfl, rfl, fun _ => by rw [hop 1 hn]; rfl, fun v hv => by cases hv; rfl⟩
    · rename_i hn
      cases h
      exact ⟨rfl, rfl, fun _ => by rw [hop 2 hn]; rfl, nofun⟩
    · rename_i hn
      cases h
      exact ⟨rfl, rfl, fun _ => by rw [hop 3 hn]; rfl, nofun⟩
    · rename_i hn
      split at h
      · cases h
      · rename_i hmax
        cases h
        exact ⟨decide_eq_true (Nat.le_of_not_lt hmax), rfl, fun _ => by rw [hop 4 hn]; rfl, nofun⟩
    · rename_i hn
      obtain ⟨cmd, cid, payload, rfl, rfl⟩ := decodeEmit_ok h
      exact ⟨rfl, rfl, fun _ => by rw [hop 5 hn]; rfl, nofun⟩
    · rename_i hn
      obtain ⟨cid, rfl, rfl⟩ := decodeCid_ok h
      exact ⟨rfl, rfl, fun _ => by rw [hop 6 hn]; rfl, nofun⟩
    · rename_i hn
      obtain ⟨cid, rfl, rfl⟩ := decodeCid_ok h
      exact ⟨rfl, rfl, fun _ => by rw [hop 7 hn]; rfl, nofun⟩
    · split at h
      · cases h
        exact ⟨rfl, rfl, fun hne => absurd rfl (hne _), nofun⟩
      · cases h

/-- Settles O2: encoding by encoding, the instruction encodes to the octets it was read from. -/
theorem decodedInstructionWellFormed : Obligations.DecodedInstructionWellFormed := by
  rintro ⟨f, o, t⟩ i h
  cases f with
  | cbor => exact readFrom_cbor h
  | ctaphid => exact readFrom_ctaphid h
  | hostOp => exact readFrom_hostOp h

/-- Settles O3: the decoder evaluates each word. -/
theorem specWordsDecode : Obligations.SpecWordsDecode := by
  refine ⟨?_, ?_, ?_, ?_, ?_, ?_, ?_, ?_⟩ <;> decide

/-- Settles O60: the arm of the refused codes, and the decoder's last case. -/
theorem unassignedOperationsRefused : Obligations.UnassignedOperationsRefused := by
  refine ⟨fun _ _ => rfl, fun op rest hlo hhi => ?_⟩
  obtain ⟨n, hn⟩ : ∃ n, op.toNat = n + 8 := ⟨op.toNat - 8, by omega⟩
  simp only [decodeWire, Wire.plain, decodeHostOp, hn]
  exact if_pos (by omega)

end Sys2Proof.Machine
end

section
/-! SUPPORT. What every instruction and every step keeps: the invariant of each framer, the frame of the state,
the isolation of instances, and the totality of HANDLE (spec/10_state.md R29-R34, 42_hid_reassembly.md R190, R221, R231,
60_exceptions.md R273, R285-R287, 70_reset_and_hazards.md R300-R305, R312). -/

namespace Sys2Proof.Machine

/-! ## The invariant of one framer -/

/-- An `Idle` record is well formed whatever the set holds (R28). -/
theorem Framer.Wf.setIdle {f : Framer} (h : f.Wf) : Framer.Wf { f with st := .idle } :=
  ⟨h.channels, trivial, h.capacity⟩

/-- A draw keeps the set canonical, and within MAX_CHANNELS where the table was not full (R226). -/
theorem Framer.Wf.insertChannel {f : Framer} (h : f.Wf) (hfull : channelsFull f = false) (c : Cid) :
    Framer.Wf { f with st := .idle, channels := Machine.insertChannel c f.channels } := by
  refine ⟨channelsWf_insertChannel h.channels, trivial, fun k hk => ?_⟩
  have hroom : f.channels.length < k := by
    rw [channelsFull, show f.config.maxChannels = some k from hk] at hfull
    exact Nat.lt_of_not_le (of_decide_eq_false hfull)
  exact Nat.le_trans length_insertChannel_le hroom

theorem applyTimeout_wf {s : State} (h : s.framer.Wf) : (applyTimeout s).framer.Wf := by
  obtain ⟨-, e⟩ | ⟨_, -, e⟩ := applyTimeout_cases s
  · rw [e]
    exact h.setIdle
  · rw [e]
    exact h

/-- A packet of at most 64 octets leaves a well-formed framer (R29, R33, R195, R226). -/
theorem handlePacket_wf {pkt : Octets} {s : State} (hmax : pkt.length ≤ 64) (h : s.framer.Wf) :
    (handlePacket pkt s).1.framer.Wf := by
  obtain ⟨_, -, e⟩ | ⟨a, ha, e⟩ := handlePacket_cases pkt s
  · rw [e]
    exact h.setIdle
  obtain ⟨hcapacity, hadmitted⟩ := packetMakes_capacity h.record hmax ha
  rw [e]
  obtain ⟨hshort, e⟩ | ⟨-, ⟨_, -, e⟩ | ⟨-, -, -, e⟩ | ⟨-, -, -, -, e⟩ | ⟨-, -, -, hfull, e⟩⟩ :=
    completeOrProgress_cases a (s.setSt (.assembling a)) <;> rw [e]
  · exact ⟨h.channels, ⟨hshort, hcapacity, hadmitted⟩, h.capacity⟩
  · exact h.setIdle
  · exact h.setIdle
  · exact h.setIdle
  · exact h.insertChannel hfull s.rng

/-! ## What an instruction leaves alone -/

/-- A HANDLE that ends, ends with one framer result. -/
theorem handleOp_next {pkt : Octets} {s t : State} (h : handleOp pkt s = .next t) :
    pkt.length ≤ 64 ∧ t = (handlePacket pkt (applyTimeout s)).1.answer
      (.ok (.handled (handlePacket pkt (applyTimeout s)).2)) := by
  obtain ⟨-, e⟩ | ⟨hmax, e⟩ := handleOp_cases pkt s
  · rw [e] at h
    cases h
  · rw [e] at h
    cases h
    exact ⟨hmax, rfl⟩

/-- The outside of two steps one after the other. -/
theorem SameOutside.trans {s t u : State} (h : SameOutside s t) (h' : SameOutside t u) : SameOutside s u :=
  ⟨h'.inst.trans h.inst, h'.parked.trans h.parked, h'.codec.trans h.codec, h'.clock.trans h.clock,
    h'.rng.trans h.rng, h'.pending.trans h.pending, h'.config.trans h.config, h'.results.trans h.results⟩

theorem handle_outside (pkt : Octets) (s : State) : SameOutside s (handlePacket pkt (applyTimeout s)).1 :=
  (applyTimeout_outside s).trans (handlePacket_outside pkt _)

/-- An instruction that ends adds one result to a state that is the same outside the addressed framer's record and
channels, and leaves that framer well formed. -/
theorem exec_next {i : Instr} {s t : State} (h : exec i s = .next t) :
    ∃ u r, SameOutside s u ∧ t = u.answer r ∧ (s.framer.Wf → u.framer.Wf) := by
  obtain ⟨r, -, e⟩ | ⟨pkt, e⟩ | ⟨-, e⟩ | ⟨code, -, e⟩ := exec_cases i s <;> rw [e] at h
  · cases h
    exact ⟨s, r, ⟨rfl, rfl, rfl, rfl, rfl, rfl, rfl, rfl⟩, rfl, id⟩
  · obtain ⟨hmax, rfl⟩ := handleOp_next h
    exact ⟨_, _, handle_outside pkt s, rfl, fun hs => handlePacket_wf hmax (applyTimeout_wf hs)⟩
  · cases h
    refine ⟨s.freshFramer, _, ⟨rfl, rfl, rfl, rfl, rfl, rfl, rfl, rfl⟩, rfl, fun _ => ?_⟩
    exact ⟨List.Pairwise.nil, trivial, fun k _ => Nat.zero_le k⟩
  · cases h

/-- Settles O7: what the instruction did before it answered is the same outside, and it answers once. -/
theorem execFrame : Obligations.ExecFrame := by
  intro i s t h
  obtain ⟨u, r, hout, rfl, -⟩ := exec_next h
  exact ⟨hout.inst, hout.parked, hout.codec, hout.clock, hout.rng, hout.pending, hout.config, r,
    congrArg (· ++ [r]) hout.results⟩

/-- An instruction keeps the invariant: it keeps the addressed framer well formed and does not touch the others. -/
theorem exec_inv {i : Instr} {s t : State} (hs : s.Inv) (h : exec i s = .next t) : t.Inv := by
  obtain ⟨u, r, hout, rfl, hwf⟩ := exec_next h
  refine ⟨hwf hs.framer, ?_, ?_⟩
  · rw [State.answer_parked, State.answer_inst, hout.parked, hout.inst]
    exact hs.parked
  · rw [State.answer_parked, hout.parked]
    exact hs.order

/-! ## A step -/

/-- A step that ends has selected the addressed framer and executed the decoded instruction (R312). -/
theorem step_next {s t : State} {r : Request} {rest : List Request} (hpending : s.pending = r :: rest)
    (h : step s = .next t) :
    ∃ s1 i, selectInstance r.inst s = some s1 ∧ exec i (s1.present r rest) = .next t := by
  obtain ⟨hnil, -⟩ | ⟨r', rest', hcons, hstep⟩ := step_cases s
  · rw [hnil] at hpending
    cases hpending
  rw [hpending] at hcons
  cases hcons
  obtain ⟨-, e⟩ | ⟨s1, hsel, ⟨_, -, e⟩ | ⟨i, -, e⟩⟩ := hstep <;> rw [e] at h
  · cases h
  · cases h
  · exact ⟨s1, i, hsel, h⟩

/-- Settles O6: selecting a framer, taking the request and executing the instruction each keep the invariant. -/
theorem stepKeepsInvariant : Obligations.StepKeepsInvariant := by
  intro s t hs h
  cases hpending : s.pending with
  | nil =>
    rw [step, hpending] at h
    cases h
  | cons r rest =>
    obtain ⟨s1, i, hsel, hexec⟩ := step_next hpending h
    exact exec_inv (present_inv (selectInstance_inv hs hsel) r rest) hexec

/-- Settles O5: one idle framer without channels, and none parked. -/
theorem resetMeetsInvariant : Obligations.ResetMeetsInvariant where
  framer := ⟨List.Pairwise.nil, trivial, nofun⟩
  parked := nofun
  order := List.Pairwise.nil

/-- Settles O4: the equation of `step` on a request that is taken. -/
theorem stepRunsDecodedInstruction : Obligations.StepRunsDecodedInstruction := by
  intro s s1 r rest i hpending hsel hdecode
  rw [step, hpending]
  simp only [hsel, hdecode]
  rfl

/-! ## Instances -/

theorem lookup_parkInstance_same {n : Nat} {f : Framer} :
    ∀ {l : List (Nat × Framer)}, (∀ x ∈ l, x.1 ≠ n) → (parkInstance n f l).lookup n = some f := by
  intro l
  induction l with
  | nil => simp [parkInstance]
  | cons y ys ih =>
    intro h
    obtain ⟨hy, hys⟩ := List.forall_mem_cons.1 h
    unfold parkInstance
    split
    · simp
    · rw [List.lookup_cons, beq_false_of_ne hy.symm]
      exact ih hys

theorem lookup_parkInstance_other {n m : Nat} {f : Framer} (hne : m ≠ n) :
    ∀ {l : List (Nat × Framer)}, (parkInstance n f l).lookup m = l.lookup m := by
  intro l
  induction l with
  | nil => rw [parkInstance, List.lookup_cons, beq_false_of_ne hne]
  | cons y ys ih =>
    unfold parkInstance
    split
    · rw [List.lookup_cons, beq_false_of_ne hne]
    · rw [List.lookup_cons, List.lookup_cons, ih]

theorem lookup_filter_other {n m : Nat} (hne : m ≠ n) :
    ∀ {l : List (Nat × Framer)}, (l.filter fun x => x.1 != n).lookup m = l.lookup m := by
  intro l
  induction l with
  | nil => rfl
  | cons y ys ih =>
    by_cases hy : y.1 = n
    · rw [List.filter_cons_of_neg (by simp [hy]), ih, List.lookup_cons, hy, beq_false_of_ne hne]
    · rw [List.filter_cons_of_pos (by simp [hy]), List.lookup_cons, List.lookup_cons, ih]

/-- Selecting a framer moves the addressed one among the parked and leaves every record as it was (R287). -/
theorem framerOf_selectInstance {n m : Nat} {s t : State} (hs : s.Inv) (h : selectInstance n s = some t)
    (hm : m ≠ n) : t.framerOf m = s.framerOf m := by
  obtain ⟨-, rfl⟩ | ⟨hn, f, -, -, rfl⟩ := selectInstance_cases h
  · rfl
  rw [State.framerOf, State.framerOf, if_neg hm]
  split
  · rename_i heq
    subst heq
    exact lookup_parkInstance_same fun x hx => (hs.parked x (List.mem_filter.1 hx).1).1
  · rename_i hne
    exact (lookup_parkInstance_other hne).trans (lookup_filter_other hm)

theorem inst_selectInstance {n : Nat} {s t : State} (h : selectInstance n s = some t) : t.inst = n := by
  obtain ⟨rfl, rfl⟩ | ⟨-, f, -, -, rfl⟩ := selectInstance_cases h <;> rfl

/-- Settles O8: the selection leaves every other record as it was, and the instruction does not touch the parked
ones. -/
theorem instancesAreIsolated : Obligations.InstancesAreIsolated := by
  intro s t r rest hs hpending h
  obtain ⟨s1, i, hsel, hexec⟩ := step_next hpending h
  obtain ⟨u, x, hout, rfl, -⟩ := exec_next hexec
  have hinst : u.inst = r.inst := hout.inst.trans (inst_selectInstance (t := s1) hsel)
  refine ⟨hinst, fun n hn => ?_⟩
  rw [← framerOf_selectInstance hs hsel hn]
  have hs1 : n ≠ s1.inst := fun e => hn (e.trans (inst_selectInstance hsel))
  have hu : n ≠ u.inst := fun e => hn (e.trans hinst)
  rw [State.framerOf, State.framerOf, if_neg hs1, State.answer_inst, if_neg hu, State.answer_parked, hout.parked]
  rfl

/-! ## HANDLE and the channel set -/

/-- Settles O52: the machine's own test of the length decides between the refusal and one framer result. -/
theorem handleIsTotal : Obligations.HandleIsTotal := by
  intro s pkt
  constructor
  · intro hmax
    obtain ⟨hlong, -⟩ | ⟨-, e⟩ := handleOp_cases pkt s
    · omega
    refine ⟨_, _, e, congrArg (· ++ _) (handle_outside pkt s).results, ?_⟩
    rw [State.answer_clockSamples, handlePacket_clockSamples, applyTimeout_clockSamples]
  · intro hlong
    obtain ⟨-, e⟩ | ⟨hmax, -⟩ := handleOp_cases pkt s
    · exact e
    · omega

/-- The channel set and the draws after the completion test: as they were, or an answered INIT on the broadcast channel
(R221). -/
theorem completeOrProgress_channels (a : Assembly) (s : State) :
    ((completeOrProgress a s).1.framer.channels = s.framer.channels ∧
      (completeOrProgress a s).1.rngDraws = s.rngDraws) ∨
    ((completeOrProgress a s).1.framer.channels = insertChannel s.rng s.framer.channels ∧
      (completeOrProgress a s).1.rngDraws = s.rngDraws + 1 ∧
      ∃ data, (completeOrProgress a s).2 = .complete ⟨broadcastCid, cmdInit, data⟩) := by
  obtain ⟨-, e⟩ | ⟨-, ⟨_, -, e⟩ | ⟨-, -, -, e⟩ | ⟨-, -, -, -, e⟩ | ⟨-, -, hcid, -, e⟩⟩ := completeOrProgress_cases a s <;>
    rw [e]
  · exact .inl ⟨rfl, rfl⟩
  · exact .inl ⟨rfl, rfl⟩
  · exact .inl ⟨rfl, rfl⟩
  · exact .inl ⟨rfl, rfl⟩
  · exact .inr ⟨rfl, rfl, _, by rw [deliverInit, hcid]⟩

theorem handlePacket_channels (pkt : Octets) (s : State) :
    ((handlePacket pkt s).1.framer.channels = s.framer.channels ∧ (handlePacket pkt s).1.rngDraws = s.rngDraws) ∨
    ((handlePacket pkt s).1.framer.channels = insertChannel s.rng s.framer.channels ∧
      (handlePacket pkt s).1.rngDraws = s.rngDraws + 1 ∧
      ∃ data, (handlePacket pkt s).2 = .complete ⟨broadcastCid, cmdInit, data⟩) := by
  obtain ⟨_, -, e⟩ | ⟨a, -, e⟩ := handlePacket_cases pkt s <;> rw [e]
  · exact .inl ⟨rfl, rfl⟩
  · exact completeOrProgress_channels a (s.setSt (.assembling a))

/-- The timeout test leaves the set and the draws alone. -/
theorem applyTimeout_channels (s : State) :
    (applyTimeout s).framer.channels = s.framer.channels ∧ (applyTimeout s).rngDraws = s.rngDraws := by
  obtain ⟨-, e⟩ | ⟨_, -, e⟩ := applyTimeout_cases s <;> rw [e] <;> exact ⟨rfl, rfl⟩

/-- Settles O53: of the instructions that end, only RESET and HANDLE write the framer, and HANDLE draws only for an
answered INIT. -/
theorem channelsGrowOnlyByInit : Obligations.ChannelsGrowOnlyByInit := by
  intro i s t h hreset
  obtain ⟨r, -, e⟩ | ⟨pkt, e⟩ | ⟨rfl, -⟩ | ⟨code, -, e⟩ := exec_cases i s
  · rw [e] at h
    cases h
    exact .inl ⟨rfl, rfl⟩
  · rw [e] at h
    obtain ⟨-, rfl⟩ := handleOp_next h
    obtain ⟨hchannels, hdraws⟩ := applyTimeout_channels s
    have hrng := (applyTimeout_outside s).rng
    obtain ⟨hc, hd⟩ | ⟨hc, hd, data, hr⟩ := handlePacket_channels pkt (applyTimeout s)
    · exact .inl ⟨hc.trans hchannels, hd.trans hdraws⟩
    · refine .inr ⟨?_, ?_, data, ?_⟩
      · rw [State.answer_channels, hc, hchannels, hrng]
      · rw [State.answer_rngDraws, hd, hdraws]
      · rw [State.answer_results, (handle_outside pkt s).results, hr]
        rfl
  · exact absurd rfl hreset
  · rw [e] at h
    cases h

theorem mem_insertChannel_self (c : Cid) : ∀ cs, c ∈ insertChannel c cs
  | [] => List.mem_singleton_self c
  | x :: xs => by
    unfold insertChannel
    split
    · rename_i h
      exact h ▸ List.mem_cons_self
    · split
      · exact List.mem_cons_self
      · exact List.mem_cons_of_mem _ (mem_insertChannel_self c xs)

/-- A member's insertion walks past the smaller members and stops at it. -/
theorem insertChannel_of_mem {c : Cid} : ∀ {cs : List Cid}, ChannelsWf cs → c ∈ cs → insertChannel c cs = cs
  | x :: xs, hwf, hc => by
    obtain ⟨hlt, hxs⟩ := List.pairwise_cons.1 hwf
    unfold insertChannel
    split
    · rfl
    · rename_i hne
      have hmem : c ∈ xs := (List.mem_cons.1 hc).resolve_left hne
      rw [if_neg (Nat.lt_asymm (hlt c hmem)), insertChannel_of_mem hxs hmem]

/-- Settles O43: insertion adds one member and keeps the others, and stops at a member already there. -/
theorem channelInsertIsUnion : Obligations.ChannelInsertIsUnion := by
  intro c cs
  refine ⟨fun x => ⟨mem_of_mem_insertChannel, ?_⟩, insertChannel_of_mem⟩
  rintro (rfl | hx)
  · exact mem_insertChannel_self x cs
  · exact mem_insertChannel_of_mem hx

/-! ## Error codes -/

/-- A completion ends in an error of R202-R226, in a delivery of the message's own command, or otherwise. -/
theorem completeOrProgress_complete {a : Assembly} {s : State} {m : Message}
    (h : (completeOrProgress a s).2 = .complete m) :
    (∃ code ∈ [errInvalidChannel, errInvalidLen, errOther], m = ⟨errorCid s.framer.st, cmdError, [code]⟩) ∨
    m.cmd = a.cmd := by
  obtain ⟨-, e⟩ | ⟨-, ⟨code, hcode, e⟩ | ⟨-, -, -, e⟩ | ⟨hcmd, -, -, -, e⟩ | ⟨hcmd, -, -, -, e⟩⟩ :=
    completeOrProgress_cases a s <;> rw [e] at h <;> cases h
  · exact .inl ⟨code, hcode, rfl⟩
  · exact .inr rfl
  · exact .inr hcmd.symm
  · exact .inr hcmd.symm

/-- The octet 4 of an initialization packet, from its command (R80). -/
theorem getElem?_four_of_isInitPacket {pkt : Octets} (hlen : initHdr ≤ pkt.length) (h : isInitPacket pkt = true) :
    pkt[4]? = some (initOctet (pktCmd pkt)) := by
  have hlt : 4 < pkt.length := Nat.lt_of_lt_of_le (by decide) hlen
  rw [pktCmd, initOctet_setWidth h, octetAt, List.getElem?_eq_getElem hlt, List.getD_eq_getElem _ _ hlt]

/-- The command of the record a packet makes is that of the packet, or of the message in progress. -/
theorem packetMakes_cmd {pkt : Octets} {s : State} {a : Assembly} (h : PacketMakes pkt s a) :
    pkt[4]? = some (initOctet a.cmd) ∨ ∃ a0, s.framer.st = .assembling a0 ∧ a0.cmd = a.cmd := by
  obtain ⟨-, hlen, hinit, -, rfl⟩ | ⟨a0, hst, -, -, -, -, rfl⟩ := h
  · exact .inl (getElem?_four_of_isInitPacket hlen hinit)
  · exact .inr ⟨a0, hst, rfl⟩

/-- The timeout test starts no message. -/
theorem applyTimeout_st_assembling {s : State} {a : Assembly} (h : (applyTimeout s).framer.st = .assembling a) :
    s.framer.st = .assembling a := by
  obtain ⟨-, e⟩ | ⟨_, -, e⟩ := applyTimeout_cases s <;> rw [e] at h
  · cases h
  · exact h

/-- Settles O54: the errors of the tests and of the completion test carry these codes; any other delivery of command
ERROR is a message that was sent with that command. -/
theorem emittedErrorCodes : Obligations.EmittedErrorCodes := by
  intro s t pkt c d h hresults
  obtain ⟨-, rfl⟩ := handleOp_next h
  rw [State.answer_results, (handle_outside pkt s).results] at hresults
  have hr : (handlePacket pkt (applyTimeout s)).2 = .complete ⟨c, 0x3F, d⟩ := by
    simpa using hresults
  obtain ⟨code, hcode, e⟩ | ⟨a, ha, e⟩ := handlePacket_cases pkt (applyTimeout s) <;> rw [e] at hr
  · cases hr
    left
    fin_cases hcode <;> decide
  · obtain ⟨code, hcode, hm⟩ | hcmd := completeOrProgress_complete hr
    · cases hm
      left
      fin_cases hcode <;> decide
    · right
      obtain hfour | ⟨a0, hst, ha0⟩ := packetMakes_cmd ha
      · rw [← hcmd] at hfour
        exact .inl (hfour.trans (by decide : some (initOctet 0x3F) = some 0xBF))
      · exact .inr ⟨a0, applyTimeout_st_assembling hst, ha0.trans hcmd.symm⟩

/-! ## The rows of octet 4, the channel predicates and RESET -/

theorem initOctet_eq_ofNat (cmd : BitVec 7) : initOctet cmd = BitVec.ofNat 8 (128 + cmd.toNat) := by
  revert cmd
  decide

theorem contOctet_eq_ofNat (seq : BitVec 7) : contOctet seq = BitVec.ofNat 8 seq.toNat := by
  revert seq
  decide

/-- Settles O51: a packet row is HANDLE of the packet from its parts, and octet 4 is the number the table gives. -/
theorem packetRowsAreHandle : Obligations.PacketRowsAreHandle := by
  intro s cid tail
  refine ⟨rfl, rfl, rfl, rfl, rfl, rfl, rfl, rfl, rfl, fun cmd => ?_, fun seq => ?_⟩
  · rw [← initOctet_eq_ofNat]
    rfl
  · rw [← contOctet_eq_ofNat]
    rfl

/-- Settles O58: the broadcast channel octet by octet, and membership as the machine tests it. -/
theorem channelPredicates : Obligations.ChannelPredicates := by
  intro s cid
  constructor
  · have hbroadcast : (cid == broadcastCid) = (cid.o0 == 0xFF && cid.o1 == 0xFF && cid.o2 == 0xFF && cid.o3 == 0xFF) := by
      obtain ⟨o0, o1, o2, o3⟩ := cid
      rw [Bool.eq_iff_iff]
      simp [broadcastCid, and_assoc]
    rw [← hbroadcast]
    rfl
  · have hmember : hasChannel s.framer.channels cid = decide (cid ∈ s.framer.channels) := by
      rw [Bool.eq_iff_iff, hasChannel_iff, decide_eq_true_iff]
    rw [← hmember]
    rfl

/-- Settles O59: RESET writes the record, the set and one result, and nothing else. -/
theorem resetStartsAFreshInstance : Obligations.ResetStartsAFreshInstance :=
  ⟨fun _ => rfl, rfl, rfl⟩

end Sys2Proof.Machine
end

section
/-! SUPPORT. UTF-8: the scanner reads the sequences of the table one after the other (spec/41_cbor_decode.md R158). -/

namespace Sys2Proof.Machine

/-- The octets of a sequence lie each in its range. -/
abbrev InRanges (row : List OctetRange) (p : Octets) : Prop := List.Forall₂ (fun r o => inRange r o = true) row p

theorem utf8From_cons_cons (r : OctetRange) (need : List OctetRange) (o : Byte) (s : Octets) :
    utf8From (r :: need) (o :: s) = (inRange r o && utf8From need s) := by
  rw [utf8From]

theorem utf8WellFormed_cons (o : Byte) (s : Octets) :
    utf8WellFormed (o :: s) = true ↔ ∃ need, utf8After o = some need ∧ utf8From need s = true := by
  rw [utf8WellFormed, utf8From]
  cases utf8After o <;> simp

/-- What is left of a sequence is read first, then well-formed text (R158). -/
theorem utf8From_iff {need : List OctetRange} {s : Octets} :
    utf8From need s = true ↔ ∃ x y, s = x ++ y ∧ InRanges need x ∧ utf8WellFormed y = true := by
  induction need generalizing s with
  | nil =>
    constructor
    · exact fun h => ⟨[], s, rfl, .nil, h⟩
    · rintro ⟨x, y, rfl, hx, hy⟩
      cases hx
      exact hy
  | cons r need ih =>
    constructor
    · cases s with
      | nil => exact nofun
      | cons o s =>
        rw [utf8From_cons_cons, Bool.and_eq_true, ih]
        rintro ⟨ho, x, y, rfl, hx, hy⟩
        exact ⟨o :: x, y, rfl, .cons ho hx, hy⟩
    · rintro ⟨_, y, rfl, hx, hy⟩
      obtain ⟨o, x, ho, hneed, rfl⟩ := List.forall₂_cons_left_iff.1 hx
      rw [List.cons_append, utf8From_cons_cons, ho, Bool.true_and, ih]
      exact ⟨x, y, rfl, hneed, hy⟩

/-- The rows of the table start with disjoint ranges, so a first octet has at most one row. -/
theorem utf8After_of_mem_utf8Rows : ∀ (o : Byte) (row : List OctetRange), row ∈ utf8Rows →
    row.head?.any (fun r => inRange r o) = true → utf8After o = some row.tail := by
  decide

theorem utf8After_eq_some_iff {o : Byte} {need : List OctetRange} :
    utf8After o = some need ↔ ∃ r, r :: need ∈ utf8Rows ∧ inRange r o = true := by
  constructor
  · intro h
    obtain ⟨row, hfind, rfl⟩ := Option.map_eq_some_iff.1 h
    have hmem := List.mem_of_find?_eq_some hfind
    have hhead := List.find?_some hfind
    cases row with
    | nil => cases hhead
    | cons r need => exact ⟨r, hmem, hhead⟩
  · rintro ⟨r, hmem, hr⟩
    exact utf8After_of_mem_utf8Rows o (r :: need) hmem hr

/-- The table's sequences, row by row. -/
theorem isUtf8Sequence_iff (p : Octets) : IsUtf8Sequence p ↔ ∃ row ∈ utf8Rows, InRanges row p := by
  match p with
  | [] => simp [IsUtf8Sequence, utf8Rows, InRanges]
  | [a] => simp [IsUtf8Sequence, utf8Rows, InRanges, inRange, Between]
  | [a, b] => simp [IsUtf8Sequence, utf8Rows, InRanges, inRange, Between, utf8Tail]
  | [a, b, c] | [a, b, c, d] =>
    simp [IsUtf8Sequence, utf8Rows, InRanges, inRange, Between, utf8Tail]
    omega
  | a :: b :: c :: d :: e :: x => simp [IsUtf8Sequence, utf8Rows, InRanges]

/-- A well-formed text that is not empty starts with a sequence of the table, and well-formed text follows. -/
theorem utf8WellFormed_cons_iff (o : Byte) (s : Octets) : utf8WellFormed (o :: s) = true ↔
    ∃ x y, s = x ++ y ∧ IsUtf8Sequence (o :: x) ∧ utf8WellFormed y = true := by
  simp only [utf8WellFormed_cons, utf8After_eq_some_iff, utf8From_iff, isUtf8Sequence_iff]
  constructor
  · rintro ⟨need, ⟨r, hmem, hr⟩, x, y, rfl, hx, hy⟩
    exact ⟨x, y, rfl, ⟨_, hmem, .cons hr hx⟩, hy⟩
  · rintro ⟨x, y, rfl, ⟨row, hmem, hrow⟩, hy⟩
    obtain ⟨r, need, hr, hx, rfl⟩ := List.forall₂_cons_right_iff.1 hrow
    exact ⟨need, ⟨r, hmem, hr⟩, x, y, rfl, hx, hy⟩

/-- The first direction of O14, by the length of the text: each sequence taken off leaves a shorter one. -/
theorem exists_parts_of_utf8WellFormed (s : Octets) (h : utf8WellFormed s = true) :
    ∃ parts : List Octets, s = parts.flatten ∧ ∀ p ∈ parts, IsUtf8Sequence p := by
  match s with
  | [] => exact ⟨[], rfl, nofun⟩
  | o :: s =>
    obtain ⟨x, y, hs, hx, hy⟩ := (utf8WellFormed_cons_iff o s).1 h
    have hlt : y.length < (o :: s).length := by
      rw [hs, List.length_cons, List.length_append]
      omega
    obtain ⟨parts, rfl, hparts⟩ := exists_parts_of_utf8WellFormed y hy
    exact ⟨(o :: x) :: parts, by rw [hs]; rfl, List.forall_mem_cons.2 ⟨hx, hparts⟩⟩
termination_by s.length

/-- Settles O14: a text is taken apart sequence by sequence, and put together likewise. -/
theorem utf8IsConcatenationOfTableRows : Obligations.Utf8IsConcatenationOfTableRows := by
  intro s
  refine ⟨exists_parts_of_utf8WellFormed s, ?_⟩
  rintro ⟨parts, rfl, hparts⟩
  induction parts with
  | nil => rfl
  | cons p parts ih =>
    obtain ⟨hp, hmore⟩ := List.forall_mem_cons.1 hparts
    cases p with
    | nil => cases hp
    | cons o x => exact (utf8WellFormed_cons_iff o _).2 ⟨x, _, rfl, hp, ih hmore⟩

end Sys2Proof.Machine
end

section
/-! SUPPORT. The item reader meets the item format: what it returns is an item of `ItemAt`, what it refuses fails by
`FailsAt`, at the same offsets (spec/41_cbor_decode.md R150-R161, R164, R167, R168). -/

namespace Sys2Proof.Machine

/-! ## Heads -/

/-- A head is read where its initial octet is a valid one of a major type 0..5. -/
theorem readItem_of_headAt {cfg : CodecConfig} {rd : Nat → Read (LogicalValue × Nat)} {b : Octets} {p mt arg q : Nat}
    (hm : mt ≤ 5) (h : HeadAt b p mt arg q) :
    ∃ ib, b[p]? = some ib ∧ readItem cfg rd b p ib = readContent cfg rd b p mt arg q := by
  obtain ⟨ib, hib, hvalid, hmt, harg⟩ := (headAt_iff hm).1 h
  refine ⟨ib, hib, ?_⟩
  rw [readItem, hvalid, if_neg Bool.false_ne_true, hmt, if_neg (by omega), harg]

/-- A head that is cut off by the end of the input (R152). -/
theorem argument_truncated {b : Octets} {p j : Nat} (h : b.length < p + 1 + 2 ^ j) :
    argument b p (24 + j) = .error b.length := by
  rw [argument, if_neg (by omega)]
  simp only [Nat.add_sub_cancel_left]
  exact if_pos h

theorem argument_error {b : Octets} {p ai e : Nat} (h : argument b p ai = .error e) :
    24 ≤ ai ∧ b.length < p + 1 + 2 ^ (ai - 24) ∧ e = b.length := by
  unfold argument at h
  split at h
  · cases h
  · simp only at h
    split at h
    · cases h
      exact ⟨by omega, by assumption, rfl⟩
    · cases h

/-! ## Runs of elements and of pairs -/

/-- A run of elements that is read up to one that fails, fails there (R168). -/
theorem readElements_prefix {rd : Nat → Read (LogicalValue × Nat)} {e : Nat} {m : Nat} :
    ∀ {j p : Nat} {vs : LogicalValues} {r : Nat}, readElements rd j p = .ok (vs, r) →
      readElements rd m r = .error e → readElements rd (j + m) p = .error e
  | 0, p, vs, r, h, he => by
    cases h
    rwa [Nat.zero_add]
  | j + 1, p, vs, r, h, he => by
    rw [Nat.add_right_comm, readElements]
    rw [readElements] at h
    split at h
    · cases h
    · rename_i u r1 h1
      split at h
      · cases h
      · rename_i us r2 h2
        cases h
        rw [readElements_prefix h2 he]

theorem readPairs_prefix {rd : Nat → Read (LogicalValue × Nat)} {e : Nat} {m : Nat} :
    ∀ {j p : Nat} {seen : List LogicalValue} {ps : LogicalPairs} {r : Nat}, readPairs rd j seen p = .ok (ps, r) →
      readPairs rd m (seen ++ ps.keys) r = .error e → readPairs rd (j + m) seen p = .error e
  | 0, p, seen, ps, r, h, he => by
    cases h
    rwa [LogicalPairs.keys, List.append_nil, ← Nat.zero_add m] at he
  | j + 1, p, seen, ps, r, h, he => by
    rw [Nat.add_right_comm, readPairs]
    rw [readPairs] at h
    split at h
    · cases h
    · rename_i k r1 h1
      split at h
      · cases h
      · rename_i hseen
        split at h
        · cases h
        · rename_i u r2 h2
          split at h
          · cases h
          · rename_i ps' r3 h3
            cases h
            rw [LogicalPairs.keys, List.append_cons] at he
            rw [if_neg hseen]
            simp only [readPairs_prefix h3 he]

/-- What reading n elements or pairs from p on does where one of them fails: those before it are read, and it fails
(R159, R168). -/
def ElementsFailAt (cfg : CodecConfig) (b : Octets) (n p d e : Nat) : Prop :=
  ∃ j vs r, j < n ∧ ElementsAt cfg b j p d vs r ∧ FailsAt cfg b r d e

/-- Likewise for pairs: the key fails, is `≈` to one of the keys before it, or its value fails (R160). -/
def PairsFailAt (cfg : CodecConfig) (b : Octets) (n : Nat) (seen : List LogicalValue) (p d e : Nat) : Prop :=
  ∃ j ps r, j < n ∧ PairsAt cfg b j seen p d ps r ∧
    (FailsAt cfg b r d e ∨
      ∃ k r', ItemAt cfg b r d k r' ∧
        (((∃ k' ∈ seen ++ ps.keys, k'.equiv k = true) ∧ e = r) ∨
         ((∀ k' ∈ seen ++ ps.keys, k'.equiv k = false) ∧ FailsAt cfg b r' d e)))

/-- A result of reading an item meets the format. -/
def MeetsItem (cfg : CodecConfig) (b : Octets) (p d : Nat) : Read (LogicalValue × Nat) → Prop
  | .ok (v, q) => ItemAt cfg b p d v q
  | .error e => FailsAt cfg b p d e

/-- A result of reading n elements meets the format. -/
def MeetsElements (cfg : CodecConfig) (b : Octets) (n p d : Nat) : Read (LogicalValues × Nat) → Prop
  | .ok (vs, q) => ElementsAt cfg b n p d vs q
  | .error e => ElementsFailAt cfg b n p d e

/-- A result of reading n pairs meets the format. -/
def MeetsPairs (cfg : CodecConfig) (b : Octets) (n : Nat) (seen : List LogicalValue) (p d : Nat) :
    Read (LogicalPairs × Nat) → Prop
  | .ok (ps, q) => PairsAt cfg b n seen p d ps q
  | .error e => PairsFailAt cfg b n seen p d e

/-! ## Soundness: what the reader returns meets the format -/

section

variable {cfg : CodecConfig} {b : Octets} {rd : Nat → Read (LogicalValue × Nat)} {p d : Nat}

theorem readElements_meets (hadv : Advances rd b.length) : ∀ {n p : Nat},
    (∀ r, p ≤ r → MeetsItem cfg b r d (rd r)) → MeetsElements cfg b n p d (readElements rd n p)
  | 0, p, _ => .nil
  | n + 1, p, hrd => by
    have hp := hrd p (Nat.le_refl p)
    rw [readElements]
    cases h1 : rd p with
    | error e =>
      rw [h1] at hp
      exact ⟨0, .nil, p, Nat.succ_pos n, .nil, hp⟩
    | ok x =>
      obtain ⟨u, r1⟩ := x
      rw [h1] at hp
      have hle := (hadv _ _ _ h1).1
      have hrest := readElements_meets hadv (n := n) (p := r1) fun r hr => hrd r (by omega)
      simp only
      cases h2 : readElements rd n r1 with
      | error e =>
        rw [h2] at hrest
        obtain ⟨j, vs, r, hj, hs, he⟩ := hrest
        exact ⟨j + 1, .cons u vs, r, Nat.succ_lt_succ hj, .cons hp hs, he⟩
      | ok y =>
        rw [h2] at hrest
        exact .cons hp hrest

theorem readPairs_meets (hadv : Advances rd b.length) : ∀ {n p : Nat} {seen : List LogicalValue},
    (∀ r, p ≤ r → MeetsItem cfg b r d (rd r)) → MeetsPairs cfg b n seen p d (readPairs rd n seen p)
  | 0, p, seen, _ => .nil
  | n + 1, p, seen, hrd => by
    have hp := hrd p (Nat.le_refl p)
    rw [readPairs]
    cases h1 : rd p with
    | error e =>
      rw [h1] at hp
      exact ⟨0, .nil, p, Nat.succ_pos n, .nil, .inl hp⟩
    | ok x =>
      obtain ⟨k, r1⟩ := x
      rw [h1] at hp
      have hle := (hadv _ _ _ h1).1
      have hr1 := hrd r1 (by omega)
      simp only
      split
      · rename_i hdup
        refine ⟨0, .nil, p, Nat.succ_pos n, .nil, .inr ⟨k, r1, hp, .inl ⟨?_, rfl⟩⟩⟩
        rw [LogicalPairs.keys, List.append_nil]
        exact List.any_eq_true.1 hdup
      · rename_i hdup
        have hnew : ∀ k' ∈ seen, k'.equiv k = false := by
          simpa using hdup
        cases h2 : rd r1 with
        | error e =>
          rw [h2] at hr1
          refine ⟨0, .nil, p, Nat.succ_pos n, .nil, .inr ⟨k, r1, hp, .inr ⟨?_, hr1⟩⟩⟩
          rwa [LogicalPairs.keys, List.append_nil]
        | ok y =>
          obtain ⟨u, r2⟩ := y
          rw [h2] at hr1
          have hle2 := (hadv _ _ _ h2).1
          have hrest := readPairs_meets hadv (n := n) (p := r2) (seen := seen ++ [k]) fun r hr => hrd r (by omega)
          simp only
          cases h3 : readPairs rd n (seen ++ [k]) r2 with
          | error e =>
            rw [h3] at hrest
            obtain ⟨j, ps, r, hj, hs, he⟩ := hrest
            rw [List.append_assoc] at he
            exact ⟨j + 1, .cons k u ps, r, Nat.succ_lt_succ hj, .cons hp hnew hr1 hs, he⟩
          | ok z =>
            rw [h3] at hrest
            exact .cons hp hnew hr1 hrest

/-- The content of a container or a string meets the format where its items do. -/
theorem readContent_meets {mt arg q : Nat} (hd : DepthOk cfg d) (hm : mt ≤ 5) (hh : HeadAt b p mt arg q)
    (hadv : Advances rd b.length) (hrd : ∀ r, q ≤ r → MeetsItem cfg b r (d + 1) (rd r)) :
    MeetsItem cfg b p d (readContent cfg rd b p mt arg q) := by
  match mt, hm with
  | 0, _ => exact .uint hd hh
  | 1, _ => exact .nint hd hh
  | 2, _ =>
    rw [readContent, readBytes]
    split
    · exact .string hd (.inl rfl) hh ‹_›
    · exact .bytes hd hh (by omega)
  | 3, _ =>
    rw [readContent, readText]
    split
    · exact .string hd (.inr rfl) hh ‹_›
    · split
      · exact .text hd hh (by omega) ‹_›
      · exact .text hd hh (by omega) (Bool.eq_false_iff.2 ‹_›)
  | 4, _ =>
    have he := readElements_meets hadv (n := arg) hrd
    rw [readContent, readArray]
    cases h : readElements rd arg q with
    | error e =>
      rw [h] at he
      obtain ⟨j, vs, r, hj, hs, hf⟩ := he
      exact .element hd hh hs hj hf
    | ok x =>
      rw [h] at he
      exact .array hd hh he
  | 5, _ =>
    have he := readPairs_meets hadv (n := arg) (seen := []) hrd
    rw [show readContent cfg rd b p 5 arg q = readMap rd arg q from rfl, readMap]
    cases h : readPairs rd arg [] q with
    | error e =>
      rw [h] at he
      obtain ⟨j, ps, r, hj, hs, hf | ⟨k, r', hk, ⟨hdup, rfl⟩ | ⟨hnew, hf⟩⟩⟩ := he
      · exact .key hd hh hs hj hf
      · exact .duplicate hd hh hs hj hk hdup
      · exact .value hd hh hs hj hk hnew hf
    | ok x =>
      rw [h] at he
      exact .map hd hh he

/-- An item with its initial octet meets the format where its nested items do (R151, R153). -/
theorem readItem_meets {ib : Byte} (hd : DepthOk cfg d) (hib : b[p]? = some ib) (hadv : Advances rd b.length)
    (hrd : ∀ r, p < r → MeetsItem cfg b r (d + 1) (rd r)) : MeetsItem cfg b p d (readItem cfg rd b p ib) := by
  have hfields := toNat_initialOctet ib
  have hai := (additionalInfo ib).isLt
  rw [readItem]
  split
  · exact .initial hd hib ((initialInvalid_iff ib).1 ‹_›)
  rename_i hvalid
  have hvalid' := hvalid
  rw [initialInvalid_iff] at hvalid'
  split
  · have hbool : ib = 0xF4 ∨ ib = 0xF5 := by
      by_contra hne
      exact hvalid' (.inr ⟨by omega, not_or.1 hne⟩)
    obtain rfl | rfl := hbool
    · exact .false hd hib
    · exact .true hd hib
  rename_i hmt
  have hm : (majorType ib).toNat ≤ 5 := by
    by_contra hgt
    have hlt := (majorType ib).isLt
    refine hvalid' (.inr ⟨by omega, ?_, ?_⟩) <;> rintro rfl <;> exact hmt rfl
  cases harg : argument b p (additionalInfo ib).toNat with
  | error e =>
    obtain ⟨hmin, hlen, rfl⟩ := argument_error harg
    exact .argument hd hib hm (j := (additionalInfo ib).toNat - 24) (by omega) (by omega) hlen
  | ok x =>
    have hh := (headAt_iff hm).2 ⟨ib, hib, Bool.eq_false_iff.2 hvalid, rfl, harg⟩
    have hq := (argument_bounds (List.getElem?_eq_some_iff.1 hib).1 harg).1
    exact readContent_meets hd hm hh hadv fun r hr => hrd r (by omega)

end

/-- The reader meets the format, its bound on the nesting being larger than the rest of the input. -/
theorem item_meets {cfg : CodecConfig} {b : Octets} : ∀ {fuel p d : Nat}, b.length - p < fuel →
    MeetsItem cfg b p d (item cfg b fuel p d)
  | 0, p, d, h => absurd h (Nat.not_lt_zero _)
  | fuel + 1, p, d, h => by
    rw [item]
    split
    · exact .tooDeep (by rw [depthOk_iff]; simpa using ‹_›)
    · rename_i hdeep
      have hd : DepthOk cfg d := depthOk_iff.2 (Bool.eq_false_iff.2 hdeep)
      split
      · exact .missing hd (List.getElem?_eq_none_iff.1 ‹_›)
      · rename_i ib hib
        have hp := (List.getElem?_eq_some_iff.1 hib).1
        exact readItem_meets hd hib item_bounds fun r hr => item_meets (by omega)

/-! ## Completeness: what meets the format is read -/

/-- The reader with its bound above the length of the input, as DECODE runs it. -/
abbrev itemAt (cfg : CodecConfig) (b : Octets) (p d : Nat) : Read (LogicalValue × Nat) := item cfg b (b.length + 1) p d

theorem itemAt_of_initial {cfg : CodecConfig} {b : Octets} {p d : Nat} {ib : Byte} (hd : DepthOk cfg d)
    (hib : b[p]? = some ib) : itemAt cfg b p d = readItem cfg (itemAt cfg b · (d + 1)) b p ib := by
  rw [itemAt, item_eq, depthOk_iff.1 hd, hib]
  rfl

theorem itemAt_of_headAt {cfg : CodecConfig} {b : Octets} {p d mt arg q : Nat} (hd : DepthOk cfg d) (hm : mt ≤ 5)
    (hh : HeadAt b p mt arg q) : itemAt cfg b p d = readContent cfg (itemAt cfg b · (d + 1)) b p mt arg q := by
  obtain ⟨ib, hib, h⟩ := readItem_of_headAt (cfg := cfg) (rd := (itemAt cfg b · (d + 1))) hm hh
  rw [itemAt_of_initial hd hib, h]

/-- The first step of a run of pairs (R160): the key fails, is a duplicate, its value fails, or the pair is read. -/
theorem readPairs_succ_error {rd : Nat → Read (LogicalValue × Nat)} {seen : List LogicalValue} {p e m : Nat}
    (h : rd p = .error e) : readPairs rd (m + 1) seen p = .error e := by
  rw [readPairs, h]

theorem readPairs_succ_duplicate {rd : Nat → Read (LogicalValue × Nat)} {seen : List LogicalValue} {p q m : Nat}
    {k : LogicalValue} (h : rd p = .ok (k, q)) (hdup : ∃ k' ∈ seen, k'.equiv k = true) :
    readPairs rd (m + 1) seen p = .error p := by
  rw [readPairs, h]
  exact if_pos (List.any_eq_true.2 hdup)

theorem readPairs_succ_value_error {rd : Nat → Read (LogicalValue × Nat)} {seen : List LogicalValue} {p q e m : Nat}
    {k : LogicalValue} (h : rd p = .ok (k, q)) (hnew : ∀ k' ∈ seen, k'.equiv k = false) (hv : rd q = .error e) :
    readPairs rd (m + 1) seen p = .error e := by
  rw [readPairs, h]
  simp only
  rw [if_neg (by simpa using hnew), hv]

theorem readPairs_succ_ok {rd : Nat → Read (LogicalValue × Nat)} {seen : List LogicalValue} {p q q' r n : Nat}
    {k v : LogicalValue} {ps : LogicalPairs} (h : rd p = .ok (k, q)) (hnew : ∀ k' ∈ seen, k'.equiv k = false)
    (hv : rd q = .ok (v, q')) (hs : readPairs rd n (seen ++ [k]) q' = .ok (ps, r)) :
    readPairs rd (n + 1) seen p = .ok (.cons k v ps, r) := by
  rw [readPairs, h]
  simp only
  rw [if_neg (by simpa using hnew), hv]
  simp only [hs]

mutual

theorem itemAt_eq_ok {cfg : CodecConfig} {b : Octets} {p d : Nat} {v : LogicalValue} {q : Nat} :
    ItemAt cfg b p d v q → itemAt cfg b p d = .ok (v, q)
  | .uint hd hh => itemAt_of_headAt hd (by decide) hh
  | .nint hd hh => itemAt_of_headAt hd (by decide) hh
  | .bytes hd hh hl => by
    rw [itemAt_of_headAt hd (by decide) hh, readContent, readBytes, if_neg (Nat.not_lt.2 hl)]
  | .text hd hh hl hu => by
    rw [itemAt_of_headAt hd (by decide) hh, readContent, readText, if_neg (Nat.not_lt.2 hl)]
    exact if_pos hu
  | .array hd hh he => by
    rw [itemAt_of_headAt hd (by decide) hh, readContent, readArray, readElements_eq_ok he]
  | .map hd hh he => by
    rw [itemAt_of_headAt hd (by decide) hh]
    show readMap _ _ _ = _
    rw [readMap, readPairs_eq_ok he]
  | .false hd hb => by
    rw [itemAt_of_initial hd hb, readItem_boolean _ _ _ _ (.inl rfl)]
    rfl
  | .true hd hb => by
    rw [itemAt_of_initial hd hb, readItem_boolean _ _ _ _ (.inr rfl)]
    rfl

theorem readElements_eq_ok {cfg : CodecConfig} {b : Octets} {n p d : Nat} {vs : LogicalValues} {q : Nat} :
    ElementsAt cfg b n p d vs q → readElements (itemAt cfg b · d) n p = .ok (vs, q)
  | .nil => rfl
  | .cons hv hs => by
    rw [readElements]
    simp only [itemAt_eq_ok hv, readElements_eq_ok hs]

theorem readPairs_eq_ok {cfg : CodecConfig} {b : Octets} {n : Nat} {seen : List LogicalValue} {p d : Nat}
    {ps : LogicalPairs} {q : Nat} :
    PairsAt cfg b n seen p d ps q → readPairs (itemAt cfg b · d) n seen p = .ok (ps, q)
  | .nil => rfl
  | .cons hk hn hv hs => readPairs_succ_ok (itemAt_eq_ok hk) hn (itemAt_eq_ok hv) (readPairs_eq_ok hs)

end

/-- A map fails where its run of pairs does. -/
theorem itemAt_map_error {cfg : CodecConfig} {b : Octets} {p d n q j r e : Nat} {ps : LogicalPairs} (hd : DepthOk cfg d)
    (hh : HeadAt b p 5 n q) (hs : PairsAt cfg b j [] q (d + 1) ps r) (hj : j < n)
    (h : ∀ m, readPairs (itemAt cfg b · (d + 1)) (m + 1) ps.keys r = .error e) : itemAt cfg b p d = .error e := by
  obtain ⟨m, rfl⟩ : ∃ m, n = j + (m + 1) := ⟨n - j - 1, by omega⟩
  rw [itemAt_of_headAt hd (by decide) hh]
  show readMap _ _ _ = _
  rw [readMap, readPairs_prefix (readPairs_eq_ok hs) (h m)]

theorem itemAt_eq_error {cfg : CodecConfig} {b : Octets} {p d e : Nat} (h : FailsAt cfg b p d e) :
    itemAt cfg b p d = .error e := by
  induction h with
  | tooDeep hd =>
    rw [itemAt, item_eq, if_pos]
    rwa [← Bool.not_eq_false, ← depthOk_iff]
  | missing hd hp =>
    rw [itemAt, item_eq, depthOk_iff.1 hd, List.getElem?_eq_none hp]
    rfl
  | initial hd hb hr => rw [itemAt_of_initial hd hb, readItem, if_pos ((initialInvalid_iff _).2 hr)]
  | @argument p d mt j ib hd hb hm hj hi hl =>
    have hfields := toNat_initialOctet ib
    have hlt := (additionalInfo ib).isLt
    have hvalid : ¬initialInvalid ib = true := by
      rw [initialInvalid_iff]
      omega
    rw [itemAt_of_initial hd hb, readItem, if_neg hvalid, if_neg (by omega),
      show (additionalInfo ib).toNat = 24 + j from by omega, argument_truncated hl]
  | string hd hm hh hl =>
    obtain rfl | rfl := hm
    · rw [itemAt_of_headAt hd (by decide) hh, readContent, readBytes, if_pos hl]
    · rw [itemAt_of_headAt hd (by decide) hh, readContent, readText, if_pos hl]
  | text hd hh hl hu =>
    rw [itemAt_of_headAt hd (by decide) hh, readContent, readText, if_neg (Nat.not_lt.2 hl), if_neg]
    exact Bool.eq_false_iff.1 hu
  | @element p d n q j r e vs hd hh hs hj _ ih =>
    obtain ⟨m, rfl⟩ : ∃ m, n = j + (m + 1) := ⟨n - j - 1, by omega⟩
    have hfail : readElements (itemAt cfg b · (d + 1)) (m + 1) r = .error e := by
      rw [readElements]
      simp only [ih]
    rw [itemAt_of_headAt hd (by decide) hh, readContent, readArray, readElements_prefix (readElements_eq_ok hs) hfail]
  | key hd hh hs hj _ ih => exact itemAt_map_error hd hh hs hj fun _ => readPairs_succ_error ih
  | duplicate hd hh hs hj hk he =>
    exact itemAt_map_error hd hh hs hj fun _ => readPairs_succ_duplicate (itemAt_eq_ok hk) he
  | value hd hh hs hj hk hn _ ih =>
    exact itemAt_map_error hd hh hs hj fun _ => readPairs_succ_value_error (itemAt_eq_ok hk) hn ih

theorem itemAt_eq_ok_iff {cfg : CodecConfig} {b : Octets} {p d : Nat} {v : LogicalValue} {q : Nat} :
    itemAt cfg b p d = .ok (v, q) ↔ ItemAt cfg b p d v q := by
  refine ⟨fun h => ?_, itemAt_eq_ok⟩
  have hmeets := item_meets (cfg := cfg) (b := b) (fuel := b.length + 1) (p := p) (d := d) (by omega)
  rwa [show item cfg b (b.length + 1) p d = _ from h] at hmeets

theorem itemAt_eq_error_iff {cfg : CodecConfig} {b : Octets} {p d e : Nat} :
    itemAt cfg b p d = .error e ↔ FailsAt cfg b p d e := by
  refine ⟨fun h => ?_, itemAt_eq_error⟩
  have hmeets := item_meets (cfg := cfg) (b := b) (fuel := b.length + 1) (p := p) (d := d) (by omega)
  rwa [show item cfg b (b.length + 1) p d = _ from h] at hmeets

/-! ## DECODE -/

theorem decodeOp_eq_iff {s : State} {b : Octets} {r : Result} :
    decodeOp b s = .next (s.answer r) ↔ decodeResult s.codec b = r :=
  ⟨fun h => s.answer_inj (Host.Outcome.next.inj h), fun h => congrArg (fun r => Host.Outcome.next (s.answer r)) h⟩

/-- DECODE answers the item at the start of the input (R150). -/
theorem decodeOp_eq_decoded_iff {s : State} {b : Octets} {v : LogicalValue} {q : Nat} :
    decodeOp b s = .next (s.answer (.ok (.decoded v q))) ↔ ItemAt s.codec b 0 1 v q := by
  rw [decodeOp_eq_iff, decodeResult, firstItem, ← itemAt_eq_ok_iff, itemAt]
  cases item s.codec b (b.length + 1) 0 1 <;> simp [Prod.ext_iff]

/-- DECODE reports where reading the item at the start of the input fails (R167). -/
theorem decodeOp_eq_invalidCbor_iff {s : State} {b : Octets} {e : Nat} :
    decodeOp b s = .next (s.answer (.err (.invalidCbor e))) ↔ FailsAt s.codec b 0 1 e := by
  rw [decodeOp_eq_iff, decodeResult, firstItem, ← itemAt_eq_error_iff, itemAt]
  cases item s.codec b (b.length + 1) 0 1 <;> simp

/-- DECODE_ALL by what DECODE reads (R166). -/
theorem execDecodeAll_eq {s : State} {b : Octets} {r : Result} (h : decodeAllResult s.codec b = r) :
    exec (.decodeAll b) s = .next (s.answer r) := congrArg (fun r => Host.Outcome.next (s.answer r)) h

/-- Settles O24: DECODE answers the item at offset 0 and depth 1, and nothing else. -/
theorem decodeMeetsItemFormat : Obligations.DecodeMeetsItemFormat := fun _ _ _ _ => decodeOp_eq_decoded_iff

/-- Every MAX_DEPTH but 0 admits the outermost item (R164). -/
theorem depthOk_one {cfg : CodecConfig} (h : cfg.maxDepth ≠ some 0) : DepthOk cfg 1 :=
  depthOk_iff.2 (tooDeep_one_eq_false h)

/-- At the end of the input every item fails, at that offset: it is missing, or too deep. -/
theorem failsAt_end {cfg : CodecConfig} {b : Octets} {r d : Nat} (hr : r = b.length) : FailsAt cfg b r d b.length := by
  subst hr
  by_cases hd : DepthOk cfg d
  · exact .missing hd (Nat.le_refl _)
  · exact .tooDeep hd

/-- Settles O22: the reader refuses what `FailsAt` says; each clause about the outermost container is one of its
rules, and at the end of the input an item is missing. -/
theorem missingAndFailingItems : Obligations.MissingAndFailingItems := by
  intro s b fails
  have hfails : ∀ e, fails e ↔ FailsAt s.codec b 0 1 e := fun e => decodeOp_eq_invalidCbor_iff
  refine ⟨hfails, fun hdepth n j q hj => ?_⟩
  have hd := depthOk_one hdepth
  have hboth : ∀ r, (∀ e, FailsAt s.codec b r 2 e → fails e) →
      (r = b.length → fails b.length) ∧ ∀ e, FailsAt s.codec b r 2 e → fails e :=
    fun r h => ⟨fun hr => h _ (failsAt_end hr), h⟩
  constructor
  · intro vs r hh hs
    exact hboth r fun e he => (hfails e).2 (.element hd hh hs hj he)
  · intro ps r hh hs
    obtain ⟨hend, hkey⟩ := hboth r fun e he => (hfails e).2 (.key hd hh hs hj he)
    refine ⟨hend, hkey, fun k r' hk hnew => ?_⟩
    exact hboth r' fun e he => (hfails e).2 (.value hd hh hs hj hk hnew he)

/-- Settles O21: a rule of `FailsAt`. -/
theorem truncatedStrings : Obligations.TruncatedStrings := fun _ _ _ _ _ hdepth hm hh hl =>
  decodeOp_eq_invalidCbor_iff.2 (.string (depthOk_one hdepth) hm hh hl)

/-- Settles O23: a rule of `FailsAt`. -/
theorem duplicateKeyOnDecode : Obligations.DuplicateKeyOnDecode := fun _ _ _ _ _ _ _ _ _ hdepth hh hs hj hk hdup =>
  decodeOp_eq_invalidCbor_iff.2 (.duplicate (depthOk_one hdepth) hh hs hj hk hdup)

/-- Settles O25: DECODE_ALL reads the same item and then compares its end with the end of the input. -/
theorem decodeAllTakesTheWholeInput : Obligations.DecodeAllTakesTheWholeInput := by
  intro s b
  refine ⟨fun v h => execDecodeAll_eq ?_, fun v q h hq => execDecodeAll_eq ?_, fun p h => execDecodeAll_eq ?_⟩
  · have hread : firstItem s.codec b = .ok (v, b.length) := itemAt_eq_ok h
    rw [decodeAllResult, hread]
    exact if_neg (not_not_intro rfl)
  · have hread : firstItem s.codec b = .ok (v, q) := itemAt_eq_ok h
    rw [decodeAllResult, hread]
    exact if_pos hq
  · have hread : firstItem s.codec b = .error p := itemAt_eq_error (decodeOp_eq_invalidCbor_iff.1 h)
    rw [decodeAllResult, hread]

/-! ## The rows of the initial octets -/

/-- Settles O19: the row's encoding is the input, and a row is DECODE of its encoding. -/
theorem decodeRunsTheRowOfItsFirstOctet : Obligations.DecodeRunsTheRowOfItsFirstOctet := by
  intro s ib tail i h
  cases h
  have henc := encodeInstr_decodeInitial ib tail
  rw [exec_eq_decodeOp_of_format_cbor (congrArg Wire.format henc), henc]
  rfl

/-- A head whose argument is its additional information (R71). -/
theorem headAt_inline {ib : Byte} {tail : Octets} {mt arg : Nat} (harg : arg ≤ 23) (hib : ib.toNat = 32 * mt + arg) :
    HeadAt (ib :: tail) 0 mt arg 1 :=
  ⟨ib, rfl, .inl ⟨arg, harg, hib, rfl, rfl⟩⟩

/-- A head whose argument stands in the 1, 2, 4 or 8 octets after it (R72). -/
theorem headAt_octets {ib : Byte} {a tail : Octets} {mt j n : Nat} (hj : j ≤ 3) (hib : ib.toNat = 32 * mt + 24 + j)
    (hlen : a.length = n) (hn : n = 2 ^ j) : HeadAt (ib :: (a ++ tail)) 0 mt (uintBe a) (n + 1) := by
  refine ⟨ib, rfl, .inr ⟨j, hj, hib, by omega, ?_, ?_⟩⟩
  · simp only [List.length_cons, List.length_append]
    omega
  · simp [slice, ← hlen]

/-- A head that is cut off. -/
theorem failsAt_truncatedArgument {cfg : CodecConfig} (hdepth : cfg.maxDepth ≠ some 0) {ib : Byte} {tail : Octets}
    {mt j : Nat} (hm : mt ≤ 5) (hj : j ≤ 3) (hib : ib.toNat = 32 * mt + 24 + j) (hlen : tail.length < 2 ^ j) :
    FailsAt cfg (ib :: tail) 0 1 (1 + tail.length) := by
  have h := FailsAt.argument (cfg := cfg) (b := ib :: tail) (p := 0) (depthOk_one hdepth) rfl hm hj hib
    (by rw [List.length_cons]; omega)
  rwa [List.length_cons, Nat.add_comm] at h

/-- A row is DECODE of the octets that encode it. -/
theorem exec_of_encodeInstr {i : Instr} {ib : Byte} {tail : Octets} (henc : encodeInstr i = cborWire ib tail)
    (s : State) : exec i s = decodeOp (ib :: tail) s := by
  rw [exec_eq_decodeOp_of_format_cbor (congrArg Wire.format henc), henc]
  rfl

/-- One argument size, the six major types. -/
theorem exec_truncatedRows {s : State} (hdepth : s.codec.maxDepth ≠ some 0) {tail : Octets} {ai : BitVec 5} {j : Nat}
    (hai : ai.toNat = 24 + j) (hj : j ≤ 3) (hlen : tail.length < 2 ^ j) {i0 i1 i2 i3 i4 i5 : Instr}
    (h0 : encodeInstr i0 = cborWire (initialOctet 0 ai) tail) (h1 : encodeInstr i1 = cborWire (initialOctet 1 ai) tail)
    (h2 : encodeInstr i2 = cborWire (initialOctet 2 ai) tail) (h3 : encodeInstr i3 = cborWire (initialOctet 3 ai) tail)
    (h4 : encodeInstr i4 = cborWire (initialOctet 4 ai) tail) (h5 : encodeInstr i5 = cborWire (initialOctet 5 ai) tail) :
    ∀ i ∈ [i0, i1, i2, i3, i4, i5], exec i s = .next (s.answer (.err (.invalidCbor (1 + tail.length)))) := by
  have hrow : ∀ (i : Instr) (mt : BitVec 3), mt.toNat ≤ 5 → encodeInstr i = cborWire (initialOctet mt ai) tail →
      exec i s = .next (s.answer (.err (.invalidCbor (1 + tail.length)))) := by
    intro i mt hm henc
    have hib : (initialOctet mt ai).toNat = 32 * mt.toNat + 24 + j := by
      rw [toNat_initialOctet, majorType_initialOctet, additionalInfo_initialOctet, hai, Nat.add_assoc]
    rw [exec_of_encodeInstr henc]
    exact decodeOp_eq_invalidCbor_iff.2 (failsAt_truncatedArgument hdepth hm hj hib hlen)
  simp only [List.forall_mem_cons]
  exact ⟨hrow _ 0 (by decide) h0, hrow _ 1 (by decide) h1, hrow _ 2 (by decide) h2, hrow _ 3 (by decide) h3,
    hrow _ 4 (by decide) h4, hrow _ 5 (by decide) h5, nofun⟩

/-- Settles O20: one argument size after the other. -/
theorem truncatedArguments : Obligations.TruncatedArguments := fun _ _ hdepth =>
  ⟨fun hlen => exec_truncatedRows hdepth (ai := 24) (j := 0) rfl (by decide) hlen rfl rfl rfl rfl rfl rfl,
    fun hlen => exec_truncatedRows hdepth (ai := 25) (j := 1) rfl (by decide) hlen rfl rfl rfl rfl rfl rfl,
    fun hlen => exec_truncatedRows hdepth (ai := 26) (j := 2) rfl (by decide) hlen rfl rfl rfl rfl rfl rfl,
    fun hlen => exec_truncatedRows hdepth (ai := 27) (j := 3) rfl (by decide) hlen rfl rfl rfl rfl rfl rfl⟩

/-- An invalid initial octet fails at its own offset; so does an item that is too deep, for MAX_DEPTH 0. -/
theorem exec_invalidInitial {i : Instr} {ib : Byte} {tail : Octets} (henc : encodeInstr i = cborWire ib tail)
    (hinvalid : initialInvalid ib = true) (s : State) : exec i s = .next (s.answer (.err (.invalidCbor 0))) := by
  rw [exec_of_encodeInstr henc]
  refine decodeOp_eq_invalidCbor_iff.2 ?_
  by_cases hd : DepthOk s.codec 1
  · exact .initial hd rfl ((initialInvalid_iff ib).1 hinvalid)
  · exact .tooDeep hd

/-- Settles O18: each row's octets are invalid, at every value of its operand. -/
theorem invalidInitialOctetRows : Obligations.InvalidInitialOctetRows := by
  intro s l1 l2 l4 l5 tail
  simp only [List.forall_mem_cons]
  refine ⟨exec_invalidInitial rfl ?_ s, exec_invalidInitial rfl ?_ s, exec_invalidInitial rfl ?_ s,
    exec_invalidInitial rfl ?_ s, exec_invalidInitial rfl ?_ s, exec_invalidInitial rfl ?_ s,
    exec_invalidInitial rfl ?_ s, exec_invalidInitial rfl ?_ s, exec_invalidInitial rfl ?_ s,
    exec_invalidInitial rfl ?_ s, exec_invalidInitial rfl ?_ s, exec_invalidInitial rfl ?_ s, nofun⟩
  all_goals
    revert l1 l2 l4 l5
    decide

/-- A row whose octets are a whole item, and what follows. -/
theorem exec_of_itemAt {i : Instr} {s : State} {ib : Byte} {tail : Octets} {v : LogicalValue} {q : Nat}
    (henc : encodeInstr i = cborWire ib tail) (h : ItemAt s.codec (ib :: tail) 0 1 v q) :
    exec i s = .next (s.answer (.ok (.decoded v q))) := by
  rw [exec_of_encodeInstr henc]
  exact decodeOp_eq_decoded_iff.2 h

theorem toNat_append_imm (k : BitVec 4) (x : BitVec 4) : (k ++ x : Byte).toNat = 16 * k.toNat + x.toNat := by
  revert k x
  decide

theorem toNat_append_imm16 (k : BitVec 5) (x : BitVec 3) : (k ++ x : Byte).toNat = 8 * k.toNat + x.toNat := by
  revert k x
  decide

theorem headAt_imm {mt : Nat} {k : BitVec 4} (hk : k.toNat = 2 * mt) (ai : BitVec 4) (tail : Octets) :
    HeadAt ((k ++ ai : Byte) :: tail) 0 mt ai.toNat 1 := by
  have hlt := ai.isLt
  refine headAt_inline (by omega) ?_
  rw [toNat_append_imm, hk]
  omega

theorem headAt_imm16 {mt : Nat} {k : BitVec 5} (hk : k.toNat = 4 * mt + 2) (lo : BitVec 3) (tail : Octets) :
    HeadAt ((k ++ lo : Byte) :: tail) 0 mt (16 + lo.toNat) 1 := by
  have hlt := lo.isLt
  refine headAt_inline (by omega) ?_
  rw [toNat_append_imm16, hk]
  omega

/-- Settles O10: each row's head gives the argument, which is the value; a cut head is refused. -/
theorem unsignedItemRows : Obligations.UnsignedItemRows := by
  intro s hdepth
  have hd := depthOk_one hdepth
  refine ⟨fun ai tail => ?_, fun lo tail => ?_, fun a tail ha => ?_, fun a tail ha => ?_, fun a tail ha => ?_,
    fun a tail ha => ?_, fun tail => ?_⟩
  · exact exec_of_itemAt rfl (.uint hd (headAt_imm (k := 0) rfl ai tail))
  · exact exec_of_itemAt rfl (.uint hd (headAt_imm16 (k := 2) rfl lo tail))
  · exact exec_of_itemAt rfl (.uint hd (headAt_octets (j := 0) (by decide) rfl ha rfl))
  · exact exec_of_itemAt rfl (.uint hd (headAt_octets (j := 1) (by decide) rfl ha rfl))
  · exact exec_of_itemAt rfl (.uint hd (headAt_octets (j := 2) (by decide) rfl ha rfl))
  · exact exec_of_itemAt rfl (.uint hd (headAt_octets (j := 3) (by decide) rfl ha rfl))
  · obtain ⟨h8, h16, h32, h64⟩ := truncatedArguments s tail hdepth
    exact ⟨fun h => ⟨_, h8 h _ (by simp)⟩, fun h => ⟨_, h16 h _ (by simp)⟩, fun h => ⟨_, h32 h _ (by simp)⟩,
      fun h => ⟨_, h64 h _ (by simp)⟩⟩

/-- Settles O11: likewise, and the value is -1 minus the argument. -/
theorem negativeItemRows : Obligations.NegativeItemRows := by
  intro s hdepth
  have hd := depthOk_one hdepth
  refine ⟨fun ai tail => ?_, fun lo tail => ?_, fun a tail ha => ?_, fun a tail ha => ?_, fun a tail ha => ?_,
    fun a tail ha => ?_, fun tail => ?_⟩
  · exact exec_of_itemAt rfl (.nint hd (headAt_imm (k := 2) rfl ai tail))
  · rw [show (-17 - lo.toNat : Int) = -1 - ((16 + lo.toNat : Nat) : Int) from by omega]
    exact exec_of_itemAt rfl (.nint hd (headAt_imm16 (k := 6) rfl lo tail))
  · exact exec_of_itemAt rfl (.nint hd (headAt_octets (j := 0) (by decide) rfl ha rfl))
  · exact exec_of_itemAt rfl (.nint hd (headAt_octets (j := 1) (by decide) rfl ha rfl))
  · exact exec_of_itemAt rfl (.nint hd (headAt_octets (j := 2) (by decide) rfl ha rfl))
  · exact exec_of_itemAt rfl (.nint hd (headAt_octets (j := 3) (by decide) rfl ha rfl))
  · obtain ⟨h8, h16, h32, h64⟩ := truncatedArguments s tail hdepth
    exact ⟨fun h => ⟨_, h8 h _ (by simp)⟩, fun h => ⟨_, h16 h _ (by simp)⟩, fun h => ⟨_, h32 h _ (by simp)⟩,
      fun h => ⟨_, h64 h _ (by simp)⟩⟩

/-- The content that follows a head. -/
theorem slice_content {x c y : Octets} {q : Nat} (hq : x.length = q) : slice (x ++ (c ++ y)) q (q + c.length) = c := by
  subst hq
  simp [slice]

section

variable {s : State} {i : Instr} {ib : Byte} {a c tail : Octets} {q : Nat}

/-- A byte-string row whose content follows its head (R156). -/
theorem exec_bytes (hdepth : s.codec.maxDepth ≠ some 0) (henc : encodeInstr i = cborWire ib (a ++ (c ++ tail)))
    (hq : (ib :: a).length = q) (hh : HeadAt (ib :: (a ++ (c ++ tail))) 0 2 c.length q) :
    exec i s = .next (s.answer (.ok (.decoded (.bytes c) (q + c.length)))) := by
  have hfits : q + c.length ≤ (ib :: (a ++ (c ++ tail))).length := by
    simp only [← hq, List.length_cons, List.length_append]
    omega
  have hitem := ItemAt.bytes (depthOk_one hdepth) hh hfits
  rw [← List.cons_append, slice_content hq] at hitem
  exact exec_of_itemAt henc hitem

/-- A text-string row whose content follows its head: the content decides (R157). -/
theorem exec_text (hdepth : s.codec.maxDepth ≠ some 0) (henc : encodeInstr i = cborWire ib (a ++ (c ++ tail)))
    (hq : (ib :: a).length = q) (hh : HeadAt (ib :: (a ++ (c ++ tail))) 0 3 c.length q) :
    exec i s = .next (s.answer
      (if utf8WellFormed c then .ok (.decoded (.text c) (q + c.length)) else .err (.invalidCbor 0))) := by
  have hfits : q + c.length ≤ (ib :: (a ++ (c ++ tail))).length := by
    simp only [← hq, List.length_cons, List.length_append]
    omega
  have hslice : slice (ib :: (a ++ (c ++ tail))) q (q + c.length) = c := slice_content (x := ib :: a) hq
  split
  · rename_i hu
    have hitem := ItemAt.text (depthOk_one hdepth) hh hfits (by rwa [hslice])
    rw [hslice] at hitem
    exact exec_of_itemAt henc hitem
  · rename_i hu
    rw [exec_of_encodeInstr henc]
    exact decodeOp_eq_invalidCbor_iff.2 (.text (depthOk_one hdepth) hh hfits (by rw [hslice]; exact Bool.eq_false_iff.2 hu))

end

/-- A head of n argument octets whose argument is the length of the content. -/
theorem headAt_length {ib : Byte} {a c tail : Octets} {mt j n : Nat} (hj : j ≤ 3) (hib : ib.toNat = 32 * mt + 24 + j)
    (hlen : a.length = n) (hn : n = 2 ^ j) (harg : uintBe a = c.length) :
    HeadAt (ib :: (a ++ (c ++ tail))) 0 mt c.length (n + 1) := by
  rw [← harg]
  exact headAt_octets hj hib hlen hn

/-- Settles O12: the content follows the head, and as many octets are there as the argument says. -/
theorem byteStringRows : Obligations.ByteStringRows := by
  intro s hdepth
  refine ⟨fun ai c tail hc => ?_, fun lo c tail hc => ?_, fun a c tail ha hc => ?_, fun a c tail ha hc => ?_,
    fun a c tail ha hc => ?_, fun a c tail ha hc => ?_⟩
  · exact exec_bytes hdepth (a := []) rfl rfl (hc ▸ headAt_imm (k := 4) rfl ai (c ++ tail))
  · exact exec_bytes hdepth (a := []) rfl rfl (hc ▸ headAt_imm16 (k := 10) rfl lo (c ++ tail))
  · exact exec_bytes hdepth rfl (congrArg Nat.succ ha) (headAt_length (j := 0) (by decide) rfl ha rfl hc)
  · exact exec_bytes hdepth rfl (congrArg Nat.succ ha) (headAt_length (j := 1) (by decide) rfl ha rfl hc)
  · exact exec_bytes hdepth rfl (congrArg Nat.succ ha) (headAt_length (j := 2) (by decide) rfl ha rfl hc)
  · exact exec_bytes hdepth rfl (congrArg Nat.succ ha) (headAt_length (j := 3) (by decide) rfl ha rfl hc)

/-- Settles O13: likewise, and the content is well formed or not. -/
theorem textStringRows : Obligations.TextStringRows := by
  intro s hdepth
  refine ⟨fun ai c tail hc => ?_, fun lo c tail hc => ?_, fun a c tail ha hc => ?_, fun a c tail ha hc => ?_,
    fun a c tail ha hc => ?_, fun a c tail ha hc => ?_⟩
  · exact exec_text hdepth (a := []) rfl rfl (hc ▸ headAt_imm (k := 6) rfl ai (c ++ tail))
  · exact exec_text hdepth (a := []) rfl rfl (hc ▸ headAt_imm16 (k := 14) rfl lo (c ++ tail))
  · exact exec_text hdepth rfl (congrArg Nat.succ ha) (headAt_length (j := 0) (by decide) rfl ha rfl hc)
  · exact exec_text hdepth rfl (congrArg Nat.succ ha) (headAt_length (j := 1) (by decide) rfl ha rfl hc)
  · exact exec_text hdepth rfl (congrArg Nat.succ ha) (headAt_length (j := 2) (by decide) rfl ha rfl hc)
  · exact exec_text hdepth rfl (congrArg Nat.succ ha) (headAt_length (j := 3) (by decide) rfl ha rfl hc)

/-- Settles O15: each row's head gives the count, and the elements follow it. -/
theorem arrayRows : Obligations.ArrayRows := by
  intro s vs r hdepth
  have hd := depthOk_one hdepth
  refine ⟨fun ai tail he => ?_, fun lo tail he => ?_, fun a tail ha he => ?_, fun a tail ha he => ?_,
    fun a tail ha he => ?_, fun a tail ha he => ?_⟩
  · exact exec_of_itemAt rfl (.array hd (headAt_imm (k := 8) rfl ai tail) he)
  · exact exec_of_itemAt rfl (.array hd (headAt_imm16 (k := 18) rfl lo tail) he)
  · exact exec_of_itemAt rfl (.array hd (headAt_octets (j := 0) (by decide) rfl ha rfl) he)
  · exact exec_of_itemAt rfl (.array hd (headAt_octets (j := 1) (by decide) rfl ha rfl) he)
  · exact exec_of_itemAt rfl (.array hd (headAt_octets (j := 2) (by decide) rfl ha rfl) he)
  · exact exec_of_itemAt rfl (.array hd (headAt_octets (j := 3) (by decide) rfl ha rfl) he)

/-- Settles O16: each row's head gives the count, and the pairs follow it. -/
theorem mapRows : Obligations.MapRows := by
  intro s ps r hdepth
  have hd := depthOk_one hdepth
  refine ⟨fun ai tail he => ?_, fun lo tail he => ?_, fun a tail ha he => ?_, fun a tail ha he => ?_,
    fun a tail ha he => ?_, fun a tail ha he => ?_⟩
  · exact exec_of_itemAt rfl (.map hd (headAt_imm (k := 10) rfl ai tail) he)
  · exact exec_of_itemAt rfl (.map hd (headAt_imm16 (k := 22) rfl lo tail) he)
  · exact exec_of_itemAt rfl (.map hd (headAt_octets (j := 0) (by decide) rfl ha rfl) he)
  · exact exec_of_itemAt rfl (.map hd (headAt_octets (j := 1) (by decide) rfl ha rfl) he)
  · exact exec_of_itemAt rfl (.map hd (headAt_octets (j := 2) (by decide) rfl ha rfl) he)
  · exact exec_of_itemAt rfl (.map hd (headAt_octets (j := 3) (by decide) rfl ha rfl) he)

end Sys2Proof.Machine
end

section
/-! SUPPORT. HANDLE where a packet makes a record: one equation per end of the completion test, for a message of one
packet and for one that a continuation packet appends to (spec/42_hid_reassembly.md R194-R208, R220-R228, R230). -/

namespace Sys2Proof.Machine

/-! ## The ends of a record -/

section

variable {a : Assembly} {s : State}

theorem not_completionAllowed_iff {cs : List Cid} {cmd : BitVec 7} {cid : Cid} :
    completionAllowed cs cmd cid = false ↔
      (cmd = cmdInit ∧ cid ≠ broadcastCid ∧ cid ∉ cs) ∨ (cmd ≠ cmdInit ∧ (cid = broadcastCid ∨ cid ∉ cs)) := by
  by_cases hcmd : cmd = cmdInit <;> by_cases hcid : cid = broadcastCid <;> simp [completionAllowed, hasChannel, hcmd, hcid]

/-- Octets are still missing (R206). -/
theorem finish_assemble_short (h : a.received.length < a.bcnt.toNat) :
    finishHandle (assemble a s.sampleClock) = .next (s.handledTo (.assembling a) .inProgress) := by
  rw [assemble, completeOrProgress, if_pos h]
  rfl

/-- A complete record on a channel its command does not admit (R204). -/
theorem finish_assemble_rejected (hfull : a.bcnt.toNat ≤ a.received.length)
    (h : completionAllowed s.framer.channels a.cmd a.cid = false) :
    finishHandle (assemble a s.sampleClock) =
      .next (s.handledTo .idle (.complete ⟨a.cid, cmdError, [errInvalidChannel]⟩)) := by
  rw [assemble, completeOrProgress, if_neg (Nat.not_lt.2 hfull), State.setSt_channels, State.sampleClock_channels,
    if_neg (Bool.eq_false_iff.1 h)]
  rfl

/-- A complete record of any command but INIT on an allocated channel (R205). -/
theorem finish_assemble_delivered (hfull : a.bcnt.toNat ≤ a.received.length) (hcmd : a.cmd ≠ cmdInit)
    (hbroadcast : a.cid ≠ broadcastCid) (hcid : a.cid ∈ s.framer.channels) :
    finishHandle (assemble a s.sampleClock) =
      .next (s.handledTo .idle (.complete ⟨a.cid, a.cmd, a.received.take a.bcnt.toNat⟩)) := by
  have hallowed : completionAllowed s.framer.channels a.cmd a.cid = true := by
    simp [completionAllowed, hcmd, hbroadcast, hasChannel_iff, hcid]
  rw [assemble, completeOrProgress, if_neg (Nat.not_lt.2 hfull), State.setSt_channels, State.sampleClock_channels,
    if_pos hallowed, if_neg hcmd]
  rfl

/-- A complete record of command INIT on an admitted channel is answered (R220). -/
theorem assemble_init (hfull : a.bcnt.toNat ≤ a.received.length) (hcmd : a.cmd = cmdInit)
    (hcid : a.cid = broadcastCid ∨ a.cid ∈ s.framer.channels) :
    assemble a s.sampleClock = initComplete a (s.sampleClock.setSt (.assembling a)) := by
  have hallowed : completionAllowed s.framer.channels a.cmd a.cid = true := by
    simpa [completionAllowed, hcmd, hasChannel_iff] using hcid
  rw [assemble, completeOrProgress, if_neg (Nat.not_lt.2 hfull), State.setSt_channels, State.sampleClock_channels,
    if_pos hallowed, if_pos hcmd]

/-- R224. -/
theorem finish_assemble_initShort (hfull : a.bcnt.toNat ≤ a.received.length) (hcmd : a.cmd = cmdInit)
    (hcid : a.cid = broadcastCid ∨ a.cid ∈ s.framer.channels) (hshort : a.bcnt.toNat < 8) :
    finishHandle (assemble a s.sampleClock) =
      .next (s.handledTo .idle (.complete ⟨a.cid, cmdError, [errInvalidLen]⟩)) := by
  rw [assemble_init hfull hcmd hcid, initComplete, if_pos hshort]
  rfl

/-- R223. -/
theorem finish_assemble_initEchoed (hfull : a.bcnt.toNat ≤ a.received.length) (hcmd : a.cmd = cmdInit)
    (hbroadcast : a.cid ≠ broadcastCid) (hcid : a.cid ∈ s.framer.channels) (hmin : 8 ≤ a.bcnt.toNat) :
    finishHandle (assemble a s.sampleClock) = .next (s.handledTo .idle (.complete ⟨a.cid, cmdInit,
      initResponse s.framer.config (slice a.received 0 8) a.cid⟩)) := by
  rw [assemble_init hfull hcmd (.inr hcid), initComplete, if_neg (Nat.not_lt.2 hmin), if_neg hbroadcast]
  rfl

/-- R226. -/
theorem finish_assemble_initRefused (hfull : a.bcnt.toNat ≤ a.received.length) (hcmd : a.cmd = cmdInit)
    (hcid : a.cid = broadcastCid) (hmin : 8 ≤ a.bcnt.toNat) (htable : channelsFull s.framer = true) :
    finishHandle (assemble a s.sampleClock) =
      .next (s.handledTo .idle (.complete ⟨broadcastCid, cmdError, [errOther]⟩)) := by
  have htable' : channelsFull (s.sampleClock.setSt (.assembling a)).framer = true := htable
  rw [assemble_init hfull hcmd (.inl hcid), initComplete, if_neg (Nat.not_lt.2 hmin), if_pos hcid, if_pos htable',
    deliverError, State.setSt_st, errorCid_assembling, hcid]
  rfl

/-- R221, R222: the draw joins the set, and the response names it. -/
theorem finish_assemble_initAllocated (hfull : a.bcnt.toNat ≤ a.received.length) (hcmd : a.cmd = cmdInit)
    (hcid : a.cid = broadcastCid) (hmin : 8 ≤ a.bcnt.toNat) (htable : channelsFull s.framer = false) :
    finishHandle (assemble a s.sampleClock) = .next
      { s with
        framer := { s.framer with st := .idle, channels := insertChannel s.rng s.framer.channels }
        clockSamples := s.clockSamples + 1
        rngDraws := s.rngDraws + 1
        results := s.results ++ [.ok (.handled (.complete ⟨broadcastCid, cmdInit,
          initResponse s.framer.config (slice a.received 0 8) s.rng⟩))] } := by
  have htable' : channelsFull (s.sampleClock.setSt (.assembling a)).framer = false := htable
  rw [assemble_init hfull hcmd (.inl hcid), initComplete, if_neg (Nat.not_lt.2 hmin), if_pos hcid, htable', deliverInit,
    hcid]
  rfl

end

/-- The table is full where MAX_CHANNELS is finite and reached (R226). -/
theorem channelsFull_eq_false {f : Framer} (h : ∀ k, f.config.maxChannels = some k → f.channels.length < k) :
    channelsFull f = false := by
  rw [channelsFull]
  split
  · rfl
  · rename_i k hk
    exact decide_eq_false (Nat.not_le.2 (h k hk))

theorem channelsFull_eq_true {f : Framer} {k : Nat} (hk : f.config.maxChannels = some k)
    (h : k ≤ f.channels.length) : channelsFull f = true := by
  rw [channelsFull, hk]
  exact decide_eq_true h

/-! ## One packet at an `Idle` record -/

/-- The record of one packet that carries all the octets it declares. -/
theorem length_take_bcnt {hi lo : Byte} {data : Octets} (h : 256 * hi.toNat + lo.toNat ≤ data.length) :
    (hi ++ lo : BitVec 16).toNat ≤ (data.take (hi ++ lo : BitVec 16).toNat).length := by
  rw [toNat_bcnt, List.length_take]
  omega

/-- Settles O39: the packet's record is short of octets, and stays. -/
theorem assemblyStarts : Obligations.AssemblyStarts := by
  intro s cid cmd hi lo data hidle hmax hcid hmissing
  have htake : data.take (hi ++ lo : BitVec 16).toNat = data := by
    rw [toNat_bcnt]
    exact List.take_of_length_le (Nat.le_of_lt hmissing)
  rw [exec_decodeCommand, handleOp_initPacket_admitted hidle hmax hcid, htake]
  exact finish_assemble_short (by rwa [toNat_bcnt])

/-- Every command but INIT is delivered alike. -/
theorem handleOp_delivered {s : State} {cid : Cid} {cmd : BitVec 7} {hi lo : Byte} {data : Octets}
    (hidle : s.MeetsIdle) (hmax : data.length ≤ 57) (hbroadcast : cid ≠ broadcastCid) (hcid : cid ∈ s.framer.channels)
    (hfull : 256 * hi.toNat + lo.toNat ≤ data.length) (hcmd : cmd ≠ cmdInit) :
    handleOp (packetOf cid (initOctet cmd) (hi :: lo :: data)) s =
      .next (s.handledTo .idle (.complete ⟨cid, cmd, data.take (256 * hi.toNat + lo.toNat)⟩)) := by
  rw [handleOp_initPacket_admitted hidle hmax (.inr hcid),
    finish_assemble_delivered (length_take_bcnt hfull) hcmd hbroadcast hcid, toNat_bcnt, List.take_take, Nat.min_self]

/-- Settles O40: none of these commands is INIT. -/
theorem singlePacketDelivery : Obligations.SinglePacketDelivery := by
  intro s cid hi lo data hidle hmax hbroadcast hcid hfull tail delivered
  have hall : ∀ cmd, cmd ≠ cmdInit → handleOp (packetOf cid (initOctet cmd) tail) s = delivered cmd :=
    fun cmd hcmd => handleOp_delivered hidle hmax hbroadcast hcid hfull hcmd
  refine ⟨hall _ (by decide), hall _ (by decide), hall _ (by decide), hall _ (by decide), hall _ (by decide),
    hall _ (by decide), hall _ (by decide), hall _ (by decide), fun cmd hwf => hall cmd ?_⟩
  rintro rfl
  simp [Instr.wf, listedCommands] at hwf

/-- Settles O41: the completion test admits only INIT on the broadcast channel. -/
theorem broadcastNonInitRejected : Obligations.BroadcastNonInitRejected := by
  intro s cmd hi lo data hidle hmax hcmd hfull
  rw [exec_decodeCommand]
  refine (handleOp_initPacket_admitted hidle hmax (.inl rfl) cmd hi lo).trans ?_
  exact finish_assemble_rejected (length_take_bcnt hfull) (not_completionAllowed_iff.2 (.inr ⟨hcmd, .inl rfl⟩))

/-- Settles O42: the packet makes a complete record of command INIT on the broadcast channel. -/
theorem initOnBroadcastAllocates : Obligations.InitOnBroadcastAllocates := by
  intro s hi lo data hidle hmax hmin hfull htable
  rw [← toNat_bcnt] at hmin
  refine (handleOp_initPacket_admitted hidle hmax (.inl rfl) cmdInit hi lo).trans ?_
  rw [finish_assemble_initAllocated (length_take_bcnt hfull) rfl rfl hmin (channelsFull_eq_false htable),
    initResponse_take _ _ hmin]
  rfl

/-- Settles O45: the length is the first test of an INIT. -/
theorem initTooShort : Obligations.InitTooShort := by
  intro s cid hi lo data hidle hmax hcid hshort hfull
  rw [← toNat_bcnt] at hshort
  exact (handleOp_initPacket_admitted hidle hmax hcid cmdInit hi lo).trans
    (finish_assemble_initShort (length_take_bcnt hfull) rfl hcid hshort)

/-- Settles O46: the table is tested before the draw. -/
theorem channelTableFull : Obligations.ChannelTableFull := by
  intro s hi lo data k hidle hmax hmin hfull hk htable
  rw [← toNat_bcnt] at hmin
  exact (handleOp_initPacket_admitted hidle hmax (.inl rfl) cmdInit hi lo).trans
    (finish_assemble_initRefused (length_take_bcnt hfull) rfl rfl hmin (channelsFull_eq_true hk htable))

/-! ## A message in progress -/

section

variable {s : State} {a : Assembly} {pkt : Octets}

/-- A packet meets the record of the message in progress after one clock sample (R191). -/
theorem handleOp_of_meetsRecord (hrec : s.MeetsRecord a) (hmax : pkt.length ≤ 64) :
    handleOp pkt s = finishHandle (contPacket pkt a s.sampleClock) := by
  obtain ⟨hlong, -⟩ | ⟨-, hhandle⟩ := handleOp_cases pkt s
  · omega
  · rw [hhandle, applyTimeout_record hrec, handlePacket, State.sampleClock_st, hrec.1]

/-- An error of a packet that meets a record goes to the cid of the message (R207). -/
theorem finish_deliverError_of_meetsRecord (hrec : s.MeetsRecord a) (code : Byte) :
    finishHandle (deliverError code s.sampleClock) = .next (s.handledTo .idle (.complete ⟨a.cid, cmdError, [code]⟩)) := by
  rw [deliverError, State.sampleClock_st, hrec.1]
  rfl

/-- R197. -/
theorem handleOp_record_short (hrec : s.MeetsRecord a) (hshort : pkt.length < contHdr) :
    handleOp pkt s = .next (s.handledTo .idle (.complete ⟨a.cid, cmdError, [errOther]⟩)) := by
  rw [handleOp_of_meetsRecord hrec (by rw [contHdr] at hshort; omega), contPacket, if_pos hshort,
    finish_deliverError_of_meetsRecord hrec]

/-- R198. -/
theorem handleOp_record_init (hrec : s.MeetsRecord a) (hmin : contHdr ≤ pkt.length) (hmax : pkt.length ≤ 64)
    (hinit : isInitPacket pkt = true) :
    handleOp pkt s = .next (s.handledTo .idle (.complete ⟨a.cid, cmdError, [errInvalidCmd]⟩)) := by
  rw [handleOp_of_meetsRecord hrec hmax, contPacket, if_neg (Nat.not_lt.2 hmin), if_pos hinit,
    finish_deliverError_of_meetsRecord hrec]

/-- R199. -/
theorem handleOp_record_foreign (hrec : s.MeetsRecord a) (hmin : contHdr ≤ pkt.length) (hmax : pkt.length ≤ 64)
    (hcont : isInitPacket pkt = false) (hcid : pktCid pkt ≠ a.cid) :
    handleOp pkt s = .next (s.handledTo .idle (.complete ⟨a.cid, cmdError, [errChannelBusy]⟩)) := by
  rw [handleOp_of_meetsRecord hrec hmax, contPacket, if_neg (Nat.not_lt.2 hmin), if_neg (Bool.eq_false_iff.1 hcont),
    if_pos hcid, finish_deliverError_of_meetsRecord hrec]

/-- R200. -/
theorem handleOp_record_wrongSeq (hrec : s.MeetsRecord a) (hmin : contHdr ≤ pkt.length) (hmax : pkt.length ≤ 64)
    (hcont : isInitPacket pkt = false) (hcid : pktCid pkt = a.cid) (hseq : (pktSeq pkt).toNat ≠ expectedSeq a) :
    handleOp pkt s = .next (s.handledTo .idle (.complete ⟨a.cid, cmdError, [errInvalidSeq]⟩)) := by
  rw [handleOp_of_meetsRecord hrec hmax, contPacket, if_neg (Nat.not_lt.2 hmin), if_neg (Bool.eq_false_iff.1 hcont),
    if_neg (not_not_intro hcid), if_pos hseq, finish_deliverError_of_meetsRecord hrec]

/-- R201. -/
theorem handleOp_record_next (hrec : s.MeetsRecord a) (hmin : contHdr ≤ pkt.length) (hmax : pkt.length ≤ 64)
    (hcont : isInitPacket pkt = false) (hcid : pktCid pkt = a.cid) (hseq : (pktSeq pkt).toNat = expectedSeq a) :
    handleOp pkt s = finishHandle (assemble (appendPacket pkt a) s.sampleClock) := by
  rw [handleOp_of_meetsRecord hrec hmax, contPacket, if_neg (Nat.not_lt.2 hmin), if_neg (Bool.eq_false_iff.1 hcont),
    if_neg (not_not_intro hcid), if_neg (not_not_intro hseq)]

end

/-- A packet from its parts has an octet 4. -/
theorem contHdr_le_length_packetOf (cid : Cid) (k : Byte) (tail : Octets) : contHdr ≤ (packetOf cid k tail).length := by
  rw [length_packetOf]
  exact Nat.le_add_left 5 tail.length

theorem expectedSeq_ne {a : Assembly} {seq : BitVec 7} (hnone : a.seqLast = none → seq ≠ 0)
    (hsome : ∀ k, a.seqLast = some k → seq.toNat ≠ k.toNat + 1) : seq.toNat ≠ expectedSeq a := by
  cases h : a.seqLast with
  | none =>
    rw [expectedSeq_none h]
    exact fun h0 => hnone h (BitVec.eq_of_toNat_eq h0)
  | some k =>
    rw [expectedSeq_some h]
    exact hsome k h

/-- Settles O47: the four tests of a packet that meets a record, in their order. -/
theorem messageInProgressErrors : Obligations.MessageInProgressErrors := by
  intro s a hrec failed
  refine ⟨fun pkt hshort => ?short, fun cid cmd tail hmax => ?init, fun cid seq tail hmax hcid => ?foreign,
    fun seq tail hmax hnone hsome => ?sequence⟩
  case short => exact handleOp_record_short hrec hshort
  case init =>
    rw [exec_decodeCommand]
    exact handleOp_record_init hrec (contHdr_le_length_packetOf ..) (length_packetOf_le _ _ hmax) (initOctet_msb cmd)
  case foreign =>
    exact handleOp_record_foreign hrec (contHdr_le_length_packetOf ..) (length_packetOf_le _ _ hmax) (contOctet_msb seq)
      hcid
  case sequence =>
    refine handleOp_record_wrongSeq hrec (contHdr_le_length_packetOf ..) (length_packetOf_le _ _ hmax)
      (contOctet_msb seq) rfl ?_
    rw [pktSeq_packetOf, contOctet_low]
    exact expectedSeq_ne hnone hsome

/-- The next continuation packet goes to the completion test with its octets appended, cut to the declared length
(R201). -/
theorem exec_contPacket_next {s : State} {a : Assembly} {seq : BitVec 7} {tail : Octets} (hrec : s.MeetsRecord a)
    (hmax : tail.length ≤ 59) (hseq : seq.toNat = expectedSeq a) :
    exec (.ctaphidContPacket a.cid seq tail) s = finishHandle (assemble
      { a with received := (a.received ++ tail).take a.bcnt.toNat, seqLast := some seq } s.sampleClock) := by
  have happend : appendPacket (packetOf a.cid (contOctet seq) tail) a =
      { a with received := (a.received ++ tail).take a.bcnt.toNat, seqLast := some seq } := by
    rw [appendPacket, contPayload_packetOf, pktSeq_packetOf, contOctet_low]
  rw [← happend]
  refine handleOp_record_next hrec (contHdr_le_length_packetOf ..) (length_packetOf_le _ _ hmax) (contOctet_msb seq) rfl
    ?_
  rw [pktSeq_packetOf, contOctet_low, hseq]

/-- Settles O48: the record with the octets appended is short of octets, and stays. -/
theorem continuationAccepted : Obligations.ContinuationAccepted := by
  intro s a seq tail hrec hmax hseq hmissing
  rw [exec_contPacket_next hrec hmax hseq, List.take_of_length_le (Nat.le_of_lt hmissing)]
  exact finish_assemble_short hmissing

/-- Settles O49: the record with the octets appended is complete; each clause is one end of the completion test. -/
theorem continuationCompletes : Obligations.ContinuationCompletes := by
  intro s a seq tail hrec hmax hseq hlen ends
  have hfull : a.bcnt.toNat ≤ ((a.received ++ tail).take a.bcnt.toNat).length := by
    rw [List.length_take]
    exact Nat.le_min.2 ⟨Nat.le_refl _, hlen⟩
  have hnext := exec_contPacket_next hrec hmax hseq
  refine ⟨fun hcmd hbroadcast hcid => ?delivered, fun hcmd hcid => ?rejected, fun hcmd hbroadcast hcid => ?unallocated,
    fun hcmd hcid hshort => ?short, fun hcmd hbroadcast hcid hmin => ?echoed, fun hcmd hcid hmin htable => ?allocated,
    fun k hcmd hcid hmin hk htable => ?refused⟩
  case delivered =>
    have h := hnext.trans (finish_assemble_delivered hfull hcmd hbroadcast hcid)
    rwa [List.take_take, Nat.min_self] at h
  case rejected => exact hnext.trans (finish_assemble_rejected hfull (not_completionAllowed_iff.2 (.inr ⟨hcmd, hcid⟩)))
  case unallocated =>
    exact hnext.trans (finish_assemble_rejected hfull (not_completionAllowed_iff.2 (.inl ⟨hcmd, hbroadcast, hcid⟩)))
  case short => exact hnext.trans (finish_assemble_initShort hfull hcmd hcid hshort)
  case echoed =>
    have h := hnext.trans (finish_assemble_initEchoed hfull hcmd hbroadcast hcid hmin)
    rwa [initResponse_take _ _ hmin] at h
  case allocated =>
    have h := hnext.trans (finish_assemble_initAllocated hfull hcmd hcid hmin (channelsFull_eq_false htable))
    rwa [initResponse_take _ _ hmin] at h
  case refused =>
    exact hnext.trans (finish_assemble_initRefused hfull hcmd hcid hmin (channelsFull_eq_true hk htable))

theorem meetsIdle_of_idle {s : State} (h : s.framer.st = .idle) : s.MeetsIdle := by
  intro a ha
  rw [h] at ha
  cases ha

/-- Settles O50: the timeout test leaves the state an idle framer's timeout test leaves. -/
theorem timeoutIsAFreshStart : Obligations.TimeoutIsAFreshStart := by
  intro s a pkt hst hlate
  have hidle : s.MeetsIdle := by
    intro a' ha'
    rw [hst] at ha'
    cases ha'
    exact hlate
  have hfresh : State.MeetsIdle { s with framer := { s.framer with st := .idle } } := meetsIdle_of_idle rfl
  have htimeout : applyTimeout s = applyTimeout { s with framer := { s.framer with st := .idle } } :=
    (applyTimeout_idle hidle).trans (applyTimeout_idle hfresh).symm
  show handleOp pkt s = handleOp pkt _
  rw [handleOp, handleOp, htimeout]

end Sys2Proof.Machine
end

section
/-! SUPPORT. EMIT: the packets octet by octet (spec/43_hid_emit.md R240-R247, R251). -/

namespace Sys2Proof.Machine

theorem length_zeroFill {n : Nat} {o : Octets} (h : o.length ≤ n) : (zeroFill n o).length = n := by
  rw [zeroFill, List.length_append, length_zeros]
  omega

/-- The payload octets of a continuation packet: 59 of them, or what is left (R241). -/
theorem contChunk_eq (payload : Octets) (j : Nat) : contChunk payload j = (payload.drop (57 + 59 * j)).take 59 := by
  rw [contChunk, slice, initDataMax, contDataMax]
  congr 1
  omega

/-- A continuation packet from its parts, its sequence number below 128 (R241, R243). -/
theorem emitCont_eq_packetOf (cid : Cid) (payload : Octets) (j : Nat) :
    emitCont cid payload j = packetOf cid (BitVec.ofNat 8 j) (zeroFill 59 ((payload.drop (57 + 59 * j)).take 59)) := by
  rw [emitCont, contChunk_eq]
  rfl

/-- An initialization packet from its parts (R242). -/
theorem emitInit_eq_packetOf (cmd : BitVec 7) (cid : Cid) (payload : Octets) :
    emitInit cmd cid payload = packetOf cid (initOctet cmd) (BitVec.ofNat 8 (payload.length / 256) ::
      BitVec.ofNat 8 payload.length :: zeroFill 57 (payload.take 57)) := by
  rw [emitInit, beOctets, beOctets, beOctets, pow_one, pow_zero, Nat.div_one]
  rfl

theorem length_of_mem_emitPackets {cmd : BitVec 7} {cid : Cid} {payload p : Octets}
    (h : p ∈ emitPackets cmd cid payload) : p.length = 64 := by
  obtain rfl | h := List.mem_cons.1 h
  · rw [emitInit_eq_packetOf, length_packetOf, List.length_cons, List.length_cons,
      length_zeroFill (List.length_take_le ..)]
  · obtain ⟨j, -, rfl⟩ := List.mem_map.1 h
    rw [emitCont_eq_packetOf, length_packetOf, length_zeroFill (List.length_take_le ..)]

/-- R241. -/
theorem length_emitPackets (cmd : BitVec 7) (cid : Cid) (payload : Octets) :
    (emitPackets cmd cid payload).length = 1 + (payload.length - 57 + 58) / 59 := by
  rw [emitPackets, List.length_cons, List.length_map, List.length_range, Nat.add_comm]
  rfl

end Sys2Proof.Machine

namespace Sys2Proof

open Sys2Proof.Machine

/-- Settles O56: the packets from their parts, in the order of emission. -/
theorem emitPackets : Obligations.EmitPackets := by
  intro s cmd cid payload
  constructor
  · intro hlong
    have hresult : emitResult cmd cid payload = .err .emitTooLong := if_pos hlong
    rw [← hresult]
    rfl
  · intro hmax
    have hresult : emitResult cmd cid payload = .ok (.packets (Machine.emitPackets cmd cid payload)) :=
      if_neg (Nat.not_lt.2 hmax)
    have hlen := length_emitPackets cmd cid payload
    refine ⟨Machine.emitPackets cmd cid payload, by rw [← hresult]; rfl, ?_, fun _ => length_of_mem_emitPackets, ?_, ?_⟩
    · rw [hlen]
      split <;> omega
    · have hzeros : 57 - (payload.take 57).length = 57 - payload.length := by
        rw [List.length_take]
        omega
      refine congrArg some ?_
      rw [emitInit_eq_packetOf, zeroFill, hzeros, initOctet_eq_ofNat]
      rfl
    · intro j hj
      have hcount : j < contCount payload.length := by
        rw [Machine.emitPackets, List.length_cons, List.length_map, List.length_range] at hj
        omega
      have hzeros : 59 - ((payload.drop (57 + 59 * j)).take 59).length = 59 - (payload.length - (57 + 59 * j)) := by
        rw [List.length_take, List.length_drop]
        omega
      rw [Machine.emitPackets, List.getElem?_cons_succ, List.getElem?_map, List.getElem?_range hcount, Option.map_some,
        emitCont_eq_packetOf, zeroFill, hzeros]
      rfl

end Sys2Proof
end

section
/-! SUPPORT. Messages of several packets: what a framer in progress makes of the packets of EMIT, and what a delivered
message carries (spec/42_hid_reassembly.md R229, 43_hid_emit.md R250). -/

namespace Sys2Proof.Machine

/-! ## The packets of EMIT at an idle framer -/

/-- A state after k packets that ended in progress: the channels and the configuration are as they were, and k such
results were added. -/
def InProgressFrom (s u : State) (k : Nat) : Prop :=
  u.framer.channels = s.framer.channels ∧ u.framer.config = s.framer.config ∧
    u.results = s.results ++ List.replicate k (.ok (.handled .inProgress))

/-- The record of the message that EMIT sends, with some of its octets received. -/
def emittedRecord (cmd : BitVec 7) (cid : Cid) (payload received : Octets) (seq : Option (BitVec 7)) (ts : Int) :
    Assembly :=
  ⟨cid, cmd, BitVec.ofNat 8 (payload.length / 256) ++ BitVec.ofNat 8 payload.length, received, seq, ts⟩

theorem toNat_emitted_bcnt {n : Nat} (h : n ≤ 7609) :
    (BitVec.ofNat 8 (n / 256) ++ BitVec.ofNat 8 n : BitVec 16).toNat = n := by
  rw [toNat_bcnt, BitVec.toNat_ofNat, BitVec.toNat_ofNat]
  omega

theorem feedPackets_cons (x : Int × Octets) (xs : List (Int × Octets)) {s t : State}
    (h : exec (.handle x.2) { s with clock := x.1 } = .next t) : feedPackets (x :: xs) s = feedPackets xs t := by
  rw [feedPackets, h]

/-- The last packet's outcome is that of the run. -/
theorem feedPackets_singleton (x : Int × Octets) {s : State} {h : Handled}
    (hexec : exec (.handle x.2) { s with clock := x.1 } = finishHandle h) : feedPackets [x] s = finishHandle h := by
  rw [feedPackets, hexec]
  rfl

/-- Continuation packet j of EMIT at the record that expects it: its octets are appended and the fill of the last packet
is cut off, and the completion test follows (R201, R243). -/
theorem exec_emitCont {s : State} {cmd : BitVec 7} {cid : Cid} {payload received received' : Octets}
    {seq : Option (BitVec 7)} {ts : Int} {j : Nat} (hmax : payload.length ≤ 7609)
    (hrec : s.MeetsRecord (emittedRecord cmd cid payload received seq ts)) (hj : j < 128)
    (hseq : expectedSeq (emittedRecord cmd cid payload received seq ts) = j)
    (htaken : (received ++ zeroFill 59 ((payload.drop (57 + 59 * j)).take 59)).take payload.length = received') :
    exec (.handle (emitCont cid payload j)) s = finishHandle (assemble
      (emittedRecord cmd cid payload received' (some (BitVec.ofNat 7 j)) ts) s.sampleClock) := by
  have htoNat : (BitVec.ofNat 7 j).toNat = j := by
    rw [BitVec.toNat_ofNat]
    omega
  have hoctet : BitVec.ofNat 8 j = contOctet (BitVec.ofNat 7 j) := by
    rw [contOctet_eq_ofNat, htoNat]
  have htail := Nat.le_of_eq (length_zeroFill (List.length_take_le 59 (payload.drop (57 + 59 * j))))
  have hnext := exec_contPacket_next hrec htail (htoNat.trans hseq.symm)
  rw [emittedRecord, toNat_emitted_bcnt hmax, htaken] at hnext
  rw [emitCont_eq_packetOf, hoctet]
  exact hnext

/-- What a continuation packet that is not the last brings. -/
theorem take_append_chunk {payload : Octets} {k : Nat} (h : k + 59 ≤ payload.length) :
    payload.take k ++ zeroFill 59 ((payload.drop k).take 59) = payload.take (k + 59) := by
  have hfull : ((payload.drop k).take 59).length = 59 := by
    rw [List.length_take, List.length_drop]
    omega
  rw [zeroFill, hfull, List.take_add]
  exact congrArg _ (List.append_nil _)

/-- What the last one brings, the fill being cut off. -/
theorem take_append_last_chunk {payload : Octets} {k : Nat} (h : payload.length ≤ k + 59) :
    (payload.take k ++ zeroFill 59 ((payload.drop k).take 59)).take payload.length = payload := by
  have hrest : (payload.drop k).take 59 = payload.drop k := List.take_of_length_le (by rw [List.length_drop]; omega)
  rw [zeroFill, hrest, ← List.append_assoc, List.take_append_drop, List.take_left]

/-- The continuation packets of EMIT from number j on, the last of which completes the record (R244, R250). -/
theorem feedPackets_emitCont {cmd : BitVec 7} {cid : Cid} {payload : Octets} {ts : Int} (hmax : payload.length ≤ 7609) :
    ∀ (m j : Nat) (times : List Int) (s : State) (seq : Option (BitVec 7)),
      j + (m + 1) = contCount payload.length → times.length = m + 1 → (∀ x ∈ times, x - ts ≤ 250) →
      s.framer.st = .assembling (emittedRecord cmd cid payload (payload.take (57 + 59 * j)) seq ts) →
      expectedSeq (emittedRecord cmd cid payload (payload.take (57 + 59 * j)) seq ts) = j →
      ∃ u seq', InProgressFrom s u m ∧
        feedPackets (times.zip ((List.range' j (m + 1)).map (emitCont cid payload))) s =
          finishHandle (assemble (emittedRecord cmd cid payload payload seq' ts) u.sampleClock) := by
  intro m
  induction m with
  | zero =>
    intro j times s seq hcount htimes hintime hst hseq
    obtain ⟨now, rfl⟩ := List.length_eq_one_iff.1 htimes
    have hrec : State.MeetsRecord { s with clock := now } _ := ⟨hst, hintime now List.mem_cons_self⟩
    rw [contCount, initDataMax, contDataMax] at hcount
    exact ⟨{ s with clock := now }, _, ⟨rfl, rfl, (List.append_nil _).symm⟩, feedPackets_singleton (now, _)
      (exec_emitCont hmax hrec (by omega) hseq (take_append_last_chunk (by omega)))⟩
  | succ m ih =>
    intro j times s seq hcount htimes hintime hst hseq
    obtain ⟨now, rest, rfl⟩ := List.exists_cons_of_length_eq_add_one htimes
    obtain ⟨hnow, hrest⟩ := List.forall_mem_cons.1 hintime
    have hrec : State.MeetsRecord { s with clock := now } _ := ⟨hst, hnow⟩
    rw [contCount, initDataMax, contDataMax] at hcount
    have htaken : (payload.take (57 + 59 * j) ++ zeroFill 59 ((payload.drop (57 + 59 * j)).take 59)).take
        payload.length = payload.take (57 + 59 * (j + 1)) := by
      rw [take_append_chunk (by omega), List.take_take, Nat.min_eq_right (by omega), Nat.mul_succ, Nat.add_assoc]
    have hshort : (payload.take (57 + 59 * (j + 1))).length <
        (emittedRecord cmd cid payload (payload.take (57 + 59 * (j + 1))) (some (BitVec.ofNat 7 j)) ts).bcnt.toNat := by
      rw [emittedRecord, toNat_emitted_bcnt hmax, List.length_take]
      omega
    have hstep := (exec_emitCont hmax hrec (by omega) hseq htaken).trans (finish_assemble_short hshort)
    have hexpected : expectedSeq (emittedRecord cmd cid payload (payload.take (57 + 59 * (j + 1)))
        (some (BitVec.ofNat 7 j)) ts) = j + 1 := by
      rw [expectedSeq_some (k := BitVec.ofNat 7 j) rfl, BitVec.toNat_ofNat]
      omega
    obtain ⟨u, seq', ⟨hchannels, hconfig, hresults⟩, hfeed⟩ := ih (j + 1) rest
      (State.handledTo { s with clock := now } _ .inProgress) _
      (by rw [contCount, initDataMax, contDataMax]; omega) (Nat.succ.inj htimes) hrest (State.handledTo_st ..) hexpected
    refine ⟨u, seq', ⟨hchannels, hconfig, ?_⟩, ?_⟩
    · rw [hresults, State.handledTo_results, List.append_assoc]
      rfl
    · rw [List.range'_succ, List.map_cons, List.zip_cons_cons, feedPackets_cons (now, emitCont cid payload j) _ hstep]
      exact hfeed

/-- The packets of EMIT make the complete record of the message, and every packet but the last ends in progress
(R250). -/
theorem feedPackets_emitPackets {s : State} {cmd : BitVec 7} {cid : Cid} {payload : Octets} {times : List Int}
    (hidle : s.framer.st = .idle) (hmax : payload.length ≤ 7609) (hadmitted : cid = broadcastCid ∨ cid ∈ s.framer.channels)
    (htimes : times.length = (emitPackets cmd cid payload).length)
    (hintime : ∀ x ∈ times, ∀ x0, times[0]? = some x0 → x - x0 ≤ 250) :
    ∃ u seq ts, InProgressFrom s u (times.length - 1) ∧
      feedPackets (times.zip (emitPackets cmd cid payload)) s =
        finishHandle (assemble (emittedRecord cmd cid payload payload seq ts) u.sampleClock) := by
  have hbcnt := toNat_emitted_bcnt hmax
  rw [emitPackets, List.length_cons, List.length_map, List.length_range] at htimes
  obtain ⟨now, rest, rfl⟩ := List.exists_cons_of_length_eq_add_one htimes
  have hfirst : exec (.handle (emitInit cmd cid payload)) { s with clock := now } = finishHandle (assemble
      (emittedRecord cmd cid payload ((zeroFill 57 (payload.take 57)).take payload.length) none now)
      (State.sampleClock { s with clock := now })) := by
    have h := handleOp_initPacket_admitted (s := { s with clock := now }) (meetsIdle_of_idle hidle)
      (Nat.le_of_eq (length_zeroFill (List.length_take_le 57 payload))) hadmitted cmd
      (BitVec.ofNat 8 (payload.length / 256)) (BitVec.ofNat 8 payload.length)
    rw [hbcnt, ← emitInit_eq_packetOf] at h
    exact h
  by_cases hone : payload.length ≤ 57
  · have hcount : contCount payload.length = 0 := by
      rw [contCount, initDataMax, contDataMax]
      omega
    have htaken : (zeroFill 57 (payload.take 57)).take payload.length = payload := by
      rw [List.take_of_length_le hone, zeroFill, List.take_left]
    rw [hcount] at htimes
    obtain rfl := List.length_eq_zero_iff.1 (Nat.succ.inj htimes)
    rw [htaken] at hfirst
    refine ⟨{ s with clock := now }, none, now, ⟨rfl, rfl, (List.append_nil _).symm⟩, ?_⟩
    rw [emitPackets, hcount]
    exact feedPackets_singleton (now, _) hfirst
  · obtain ⟨m, hm⟩ : ∃ m, contCount payload.length = m + 1 := by
      refine ⟨contCount payload.length - 1, ?_⟩
      rw [contCount, initDataMax, contDataMax]
      omega
    have hlen : (payload.take 57).length = 57 := by
      rw [List.length_take]
      omega
    have htaken : (zeroFill 57 (payload.take 57)).take payload.length = payload.take 57 := by
      rw [zeroFill, hlen, List.take_of_length_le]
      · exact List.append_nil _
      · rw [List.length_append, hlen, length_zeros]
        omega
    have hshort : (payload.take 57).length < (emittedRecord cmd cid payload (payload.take 57) none now).bcnt.toNat := by
      rw [emittedRecord, hbcnt, hlen]
      omega
    rw [htaken] at hfirst
    have hstep := hfirst.trans (finish_assemble_short hshort)
    rw [hm] at htimes
    obtain ⟨u, seq, ⟨hchannels, hconfig, hresults⟩, hfeed⟩ := feedPackets_emitCont (cmd := cmd) (cid := cid) (ts := now)
      hmax m 0 rest
      (State.handledTo { s with clock := now } _ .inProgress) none (by rw [hm, Nat.zero_add]) (Nat.succ.inj htimes)
      (fun x hx => hintime x (List.mem_cons_of_mem _ hx) now rfl) (State.handledTo_st ..) (expectedSeq_none rfl)
    refine ⟨u, seq, now, ⟨hchannels, hconfig, ?_⟩, ?_⟩
    · rw [hresults, State.handledTo_results, List.append_assoc, List.length_cons, Nat.succ.inj htimes]
      rfl
    · rw [emitPackets, hm, List.range_eq_range', List.zip_cons_cons,
        feedPackets_cons (now, emitInit cmd cid payload) _ hstep]
      exact hfeed

/-- Settles O57: the packets make the complete record of the message, and each clause is one end of the completion
test. -/
theorem splitterInvertsFramer : Obligations.SplitterInvertsFramer := by
  intro s cmd cid payload times hidle hmax htimes hintime ends
  have hends : ∀ m, (cid = broadcastCid ∨ cid ∈ s.framer.channels) →
      (∀ (u : State) seq ts, u.framer.channels = s.framer.channels → u.framer.config = s.framer.config →
        finishHandle (assemble (emittedRecord cmd cid payload payload seq ts) u.sampleClock) =
          .next (u.handledTo .idle (.complete m))) → ends m := by
    intro m hadmitted hfinish
    obtain ⟨u, seq, ts, ⟨hchannels, hconfig, hresults⟩, hfeed⟩ :=
      feedPackets_emitPackets hidle hmax hadmitted htimes hintime
    refine ⟨_, hfeed.trans (hfinish u seq ts hchannels hconfig), ?_, ?_⟩
    · show Framer.mk .idle u.framer.channels u.framer.config = s.framer
      rw [hchannels, hconfig, ← hidle]
    · rw [State.handledTo_results, hresults]
  have hbcnt := toNat_emitted_bcnt hmax
  have hfull : ∀ seq ts, (emittedRecord cmd cid payload payload seq ts).bcnt.toNat ≤
      (emittedRecord cmd cid payload payload seq ts).received.length := fun _ _ => Nat.le_of_eq hbcnt
  refine ⟨fun hbroadcast hcid => ⟨fun hcmd => ?delivered, fun hcmd hmin => ?echoed, fun hcmd hshort => ?short⟩,
    fun hcid hcmd => ?rejected⟩
  case delivered =>
    refine hends _ (.inr hcid) fun u seq ts hchannels _ => ?_
    rw [finish_assemble_delivered (hfull seq ts) hcmd hbroadcast (hchannels ▸ hcid)]
    simp only [emittedRecord, hbcnt, List.take_length]
  case echoed =>
    refine hends _ (.inr hcid) fun u seq ts hchannels hconfig => ?_
    have hresponse := initResponse_take u.framer.config cid hmin payload
    rw [List.take_length, hconfig] at hresponse
    rw [finish_assemble_initEchoed (hfull seq ts) hcmd hbroadcast (hchannels ▸ hcid) (by rwa [emittedRecord, hbcnt]),
      hconfig, emittedRecord, hresponse]
    rfl
  case short =>
    refine hends _ (.inr hcid) fun u seq ts hchannels _ => ?_
    exact finish_assemble_initShort (hfull seq ts) hcmd (.inr (hchannels ▸ hcid)) (by rwa [emittedRecord, hbcnt])
  case rejected =>
    refine hends _ (.inl hcid) fun u seq ts hchannels _ => ?_
    have h := finish_assemble_rejected (s := u) (hfull seq ts) (not_completionAllowed_iff.2 (.inr ⟨hcmd, .inl hcid⟩))
    rw [h, emittedRecord, hcid]
    rfl

/-! ## What a delivered message carries -/

/-- A HANDLE adds one result. -/
theorem exec_handle_results {pkt : Octets} {s t : State} (h : exec (.handle pkt) s = .next t) :
    ∃ r, t.results = s.results ++ [r] :=
  have ⟨_, _, _, _, _, _, _, hresults⟩ := execFrame _ s t h
  hresults

/-- A run adds as many results as it has packets. -/
theorem feedPackets_results : ∀ {l : List (Int × Octets)} {s t : State}, feedPackets l s = .next t →
    ∃ rs, rs.length = l.length ∧ t.results = s.results ++ rs
  | [], s, t, h => by
    cases h
    exact ⟨[], rfl, (List.append_nil _).symm⟩
  | x :: xs, s, t, h => by
    rw [feedPackets] at h
    split at h
    · rename_i t1 h1
      obtain ⟨r, hr⟩ := exec_handle_results h1
      obtain ⟨rs, hlen, hrs⟩ := feedPackets_results h
      exact ⟨r :: rs, congrArg Nat.succ hlen, by rw [hrs, hr, List.append_assoc]; rfl⟩
    · cases h
    · cases h

/-- A packet that ends in progress leaves the record it makes (R206). -/
theorem exec_handle_inProgress {pkt : Octets} {s t : State} (h : exec (.handle pkt) s = .next t)
    (hresult : t.results = s.results ++ [.ok (.handled .inProgress)]) :
    ∃ a, PacketMakes pkt (applyTimeout s) a ∧ t.framer.st = .assembling a := by
  obtain ⟨-, rfl⟩ := handleOp_next h
  rw [State.answer_results, (handle_outside pkt s).results] at hresult
  have hr : (handlePacket pkt (applyTimeout s)).2 = .inProgress := by
    simpa using hresult
  rw [State.answer_st]
  obtain ⟨_, -, e⟩ | ⟨a, ha, e⟩ := handlePacket_cases pkt (applyTimeout s) <;> rw [e] at hr ⊢
  · cases hr
  obtain ⟨-, e'⟩ | ⟨-, ⟨_, -, e'⟩ | ⟨-, -, -, e'⟩ | ⟨-, -, -, -, e'⟩ | ⟨-, -, -, -, e'⟩⟩ :=
    completeOrProgress_cases a ((applyTimeout s).setSt (.assembling a)) <;> rw [e'] at hr ⊢
  · exact ⟨a, ha, rfl⟩
  all_goals cases hr

/-- A packet that ends with a message that is neither an error nor the answer to an INIT: the octets of the record it
makes, as many as the message declares (R205). -/
theorem exec_handle_complete {pkt : Octets} {s t : State} {m : Message} (h : exec (.handle pkt) s = .next t)
    (hresult : t.results = s.results ++ [.ok (.handled (.complete m))]) (herror : m.cmd ≠ cmdError)
    (hinit : m.cmd ≠ cmdInit) :
    ∃ a, PacketMakes pkt (applyTimeout s) a ∧ a.bcnt.toNat ≤ a.received.length ∧
      m.data = a.received.take a.bcnt.toNat := by
  obtain ⟨-, rfl⟩ := handleOp_next h
  rw [State.answer_results, (handle_outside pkt s).results] at hresult
  have hr : (handlePacket pkt (applyTimeout s)).2 = .complete m := by
    simpa using hresult
  obtain ⟨_, -, e⟩ | ⟨a, ha, e⟩ := handlePacket_cases pkt (applyTimeout s) <;> rw [e] at hr
  · cases hr
    exact absurd rfl herror
  obtain ⟨-, e'⟩ | ⟨hfull, ⟨_, -, e'⟩ | ⟨-, -, -, e'⟩ | ⟨-, -, -, -, e'⟩ | ⟨-, -, -, -, e'⟩⟩ :=
    completeOrProgress_cases a ((applyTimeout s).setSt (.assembling a)) <;> rw [e'] at hr <;> cases hr
  · exact absurd rfl herror
  · exact ⟨a, ha, hfull, rfl⟩
  · exact absurd rfl hinit
  · exact absurd rfl hinit

/-- The record a packet makes of a message in progress. -/
theorem packetMakes_of_meetsRecord {pkt : Octets} {s : State} {a a' : Assembly} (hrec : s.MeetsRecord a)
    (h : PacketMakes pkt (applyTimeout s) a') : a' = appendPacket pkt a := by
  have hst : (applyTimeout s).framer.st = .assembling a := by
    rw [applyTimeout_record hrec]
    exact hrec.1
  obtain ⟨hidle, -⟩ | ⟨a0, ha0, -, -, -, -, rfl⟩ := h
  · rw [hst] at hidle
    cases hidle
  · rw [hst] at ha0
    cases ha0
    rfl

/-- The record a first packet makes. -/
theorem packetMakes_of_idle {pkt : Octets} {s : State} {a : Assembly} (hidle : s.framer.st = .idle)
    (h : PacketMakes pkt (applyTimeout s) a) : a = startAssembly pkt s.clock := by
  rw [applyTimeout_idle (meetsIdle_of_idle hidle)] at h
  obtain ⟨-, -, -, -, rfl⟩ | ⟨_, ha0, -⟩ := h
  · rfl
  · cases ha0

/-- Cutting to n octets before more are appended does not change the first n. -/
theorem take_take_append (n : Nat) (x y : Octets) : (x.take n ++ y).take n = (x ++ y).take n := by
  rw [List.take_append, List.take_append, List.take_take, Nat.min_self, List.length_take]
  congr 2
  omega

/-- The first packet of a run, and the rest of it. -/
theorem feedPackets_cons_next {x : Int × Octets} {xs : List (Int × Octets)} {s t : State}
    (h : feedPackets (x :: xs) s = .next t) :
    ∃ t1, exec (.handle x.2) { s with clock := x.1 } = .next t1 ∧ feedPackets xs t1 = .next t := by
  rw [feedPackets] at h
  split at h
  · exact ⟨_, ‹_›, h⟩
  · cases h
  · cases h

/-- A run of one packet more than its results in progress: the first result is one of them, the rest as before. -/
theorem results_cons {x : Int × Octets} {xs : List (Int × Octets)} {s t1 t : State} {n : Nat} {c : Result}
    (hexec : exec (.handle x.2) { s with clock := x.1 } = .next t1) (hfeed : feedPackets xs t1 = .next t)
    (hresults : t.results = s.results ++ List.replicate (n + 1) (.ok (.handled .inProgress)) ++ [c]) :
    t1.results = s.results ++ [.ok (.handled .inProgress)] ∧
      t.results = t1.results ++ List.replicate n (.ok (.handled .inProgress)) ++ [c] := by
  obtain ⟨r, hr⟩ := exec_handle_results hexec
  obtain ⟨rs, -, hrs⟩ := feedPackets_results hfeed
  have hr' : t1.results = s.results ++ [r] := hr
  rw [hrs, hr', List.replicate_succ] at hresults
  simp only [List.append_assoc, List.append_cancel_left_eq, List.cons_append, List.nil_append, List.cons.injEq] at hresults
  obtain ⟨rfl, rfl⟩ := hresults
  exact ⟨hr', by rw [hrs, List.append_assoc]⟩

/-- The rest of a message in progress (R229): the octets received, then those of the packets. -/
theorem feedPackets_data {m : Message} (herror : m.cmd ≠ cmdError) (hinit : m.cmd ≠ cmdInit) :
    ∀ {xs : List (Int × Octets)} {x : Int × Octets} {s t : State} {a : Assembly}, s.framer.st = .assembling a →
      (∀ y ∈ x :: xs, y.1 - a.beginTs ≤ 250) → feedPackets (x :: xs) s = .next t →
      t.results = s.results ++ List.replicate xs.length (.ok (.handled .inProgress)) ++ [.ok (.handled (.complete m))] →
      m.data = (a.received ++ ((x :: xs).map fun y => y.2.drop 5).flatten).take a.bcnt.toNat ∧
        m.data.length = a.bcnt.toNat := by
  intro xs
  induction xs with
  | nil =>
    intro x s t a hst hintime hfeed hresults
    have hrec : State.MeetsRecord { s with clock := x.1 } a := ⟨hst, hintime x List.mem_cons_self⟩
    obtain ⟨t1, hexec, hnil⟩ := feedPackets_cons_next hfeed
    cases hnil
    obtain ⟨a', ha', hfull, hdata⟩ := exec_handle_complete hexec (by simpa using hresults) herror hinit
    obtain rfl := packetMakes_of_meetsRecord hrec ha'
    constructor
    · rw [hdata]
      simp [appendPacket, contPayload, contHdr, List.take_take]
    · rw [hdata, List.length_take]
      exact Nat.min_eq_left hfull
  | cons y ys ih =>
    intro x s t a hst hintime hfeed hresults
    obtain ⟨hx, hxs⟩ := List.forall_mem_cons.1 hintime
    have hrec : State.MeetsRecord { s with clock := x.1 } a := ⟨hst, hx⟩
    obtain ⟨t1, hexec, hrest⟩ := feedPackets_cons_next hfeed
    obtain ⟨hfirst, hmore⟩ := results_cons hexec hrest hresults
    obtain ⟨a', ha', hst'⟩ := exec_handle_inProgress hexec hfirst
    obtain rfl := packetMakes_of_meetsRecord hrec ha'
    obtain ⟨hdata, hlen⟩ := ih hst' hxs hrest hmore
    refine ⟨?_, hlen⟩
    rw [hdata, appendPacket, take_take_append, List.map_cons, List.flatten_cons, List.append_assoc]
    rfl

/-- Settles O55: the first packet makes the record, and the rest of the message is appended to it. -/
theorem framerConservation : Obligations.FramerConservation := by
  intro s t now pkt more m hidle hintime hfeed hresults herror hinit
  obtain ⟨t1, hexec, hrest⟩ := feedPackets_cons_next hfeed
  have hidle' : ({ s with clock := now } : State).framer.st = .idle := hidle
  cases more with
  | nil =>
    cases hrest
    obtain ⟨a, ha, hfull, hdata⟩ := exec_handle_complete hexec (by simpa using hresults) herror hinit
    obtain rfl := packetMakes_of_idle hidle' ha
    constructor
    · rw [hdata]
      simp [startAssembly, initPayload, initHdr, List.take_take]
    · rw [hdata, List.length_take]
      exact Nat.min_eq_left hfull
  | cons x xs =>
    obtain ⟨hfirst, hmore⟩ := results_cons hexec hrest hresults
    obtain ⟨a, ha, hst⟩ := exec_handle_inProgress hexec hfirst
    obtain rfl := packetMakes_of_idle hidle' ha
    obtain ⟨hdata, hlen⟩ := feedPackets_data herror hinit hst hintime hrest hmore
    refine ⟨?_, hlen⟩
    rw [hdata, startAssembly, take_take_append]
    rfl

end Sys2Proof.Machine
end

section
/-! SUPPORT. Logical values: an induction over their elements, and the functions on their lists as functions on lists
(spec/10_state.md R24-R26, 40_cbor_encode.md R111, R119). -/

namespace Sys2Proof

/-- Induction over a value: what holds of the elements, or of the keys and values, holds of the container. -/
theorem LogicalValue.induction_mem {P : LogicalValue → Prop} (int : ∀ z, P (.int z)) (bytes : ∀ b, P (.bytes b))
    (text : ∀ b, P (.text b)) (array : ∀ vs : LogicalValues, (∀ v ∈ vs.toList, P v) → P (.array vs))
    (map : ∀ ps : LogicalPairs, (∀ p ∈ ps.toList, P p.1 ∧ P p.2) → P (.map ps)) (bool : ∀ t, P (.bool t))
    (other : ∀ k, P (.other k)) (v : LogicalValue) : P v :=
  LogicalValue.rec (motive_1 := P) (motive_2 := fun vs => ∀ v ∈ vs.toList, P v)
    (motive_3 := fun ps => ∀ p ∈ ps.toList, P p.1 ∧ P p.2) int bytes text array map bool other nofun
    (fun _ _ hv hvs => List.forall_mem_cons.2 ⟨hv, hvs⟩) nofun
    (fun _ _ _ hk hv hps => List.forall_mem_cons.2 ⟨⟨hk, hv⟩, hps⟩) v

end Sys2Proof

namespace Sys2Proof.Machine

/-! ## The check of ENCODE (R111) -/

theorem checkValues_eq_findSome? (cfg : CodecConfig) (d : Nat) : ∀ vs : LogicalValues,
    checkValues cfg vs d = vs.toList.findSome? (checkValue cfg · d)
  | .nil => by rw [checkValues]; rfl
  | .cons v vs => by
    rw [checkValues, LogicalValues.toList, List.findSome?_cons, checkValues_eq_findSome? cfg d vs]
    cases checkValue cfg v d <;> rfl

/-- The first error of a pair: that of its key, else that of its value. -/
def checkPair (cfg : CodecConfig) (d : Nat) (p : LogicalValue × LogicalValue) : Option OpError :=
  (checkValue cfg p.1 d).or (checkValue cfg p.2 d)

theorem checkPairs_eq_findSome? (cfg : CodecConfig) (d : Nat) : ∀ ps : LogicalPairs,
    checkPairs cfg ps d = ps.toList.findSome? (checkPair cfg d)
  | .nil => by rw [checkPairs]; rfl
  | .cons k v ps => by
    rw [checkPairs, LogicalPairs.toList, List.findSome?_cons, checkPairs_eq_findSome? cfg d ps, checkPair]
    cases checkValue cfg k d <;> cases checkValue cfg v d <;> rfl

section

variable {cfg : CodecConfig} {d : Nat}

theorem atDepth_of_depthOk (h : DepthOk cfg d) (rest : Option OpError) : atDepth cfg d rest = rest := by
  rw [atDepth, depthOk_iff.1 h, if_neg Bool.false_ne_true]

theorem checkValue_of_not_depthOk (h : ¬DepthOk cfg d) (v : LogicalValue) : checkValue cfg v d = some .unsupported := by
  have hdeep : tooDeep cfg d = true := by rwa [← Bool.not_eq_false, ← depthOk_iff]
  cases v <;> rw [checkValue, atDepth, if_pos hdeep]

theorem lengthError_eq_none {n : Nat} (h : n < 2 ^ 64) : lengthError n = none := if_neg (Nat.not_le.2 h)

theorem lengthError_eq_outOfRange {n : Nat} (h : 2 ^ 64 ≤ n) : lengthError n = some .outOfRange := if_pos h

theorem lengthError_eq (n : Nat) : lengthError n = if n < 2 ^ 64 then none else some .outOfRange := by
  split
  · exact lengthError_eq_none ‹_›
  · exact lengthError_eq_outOfRange (Nat.le_of_not_lt ‹_›)

theorem intError_eq (z : Int) :
    intError z = if -(2 ^ 64) ≤ z ∧ z ≤ 2 ^ 64 - 1 then none else some .outOfRange := by
  by_cases hz : -(2 ^ 64) ≤ z ∧ z ≤ 2 ^ 64 - 1
  · rw [intError, if_neg (by omega), if_pos hz]
  · rw [intError, if_pos (by omega), if_neg hz]

theorem checkValue_int (hd : DepthOk cfg d) (z : Int) : checkValue cfg (.int z) d = intError z := by
  rw [checkValue, atDepth_of_depthOk hd]

theorem checkValue_bytes (hd : DepthOk cfg d) (b : Octets) : checkValue cfg (.bytes b) d = lengthError b.length := by
  rw [checkValue, atDepth_of_depthOk hd]

theorem checkValue_text (hd : DepthOk cfg d) (b : Octets) : checkValue cfg (.text b) d = lengthError b.length := by
  rw [checkValue, atDepth_of_depthOk hd]

theorem checkValue_bool (hd : DepthOk cfg d) (t : Bool) : checkValue cfg (.bool t) d = none := by
  rw [checkValue, atDepth_of_depthOk hd]

theorem checkValue_other (cfg : CodecConfig) (d k : Nat) : checkValue cfg (.other k) d = some .unsupported := by
  rw [checkValue, atDepth]
  split <;> rfl

/-- An array of a length a head carries: its first element that fails. -/
theorem checkValue_array (hd : DepthOk cfg d) {vs : LogicalValues} (hlen : vs.toList.length < 2 ^ 64) :
    checkValue cfg (.array vs) d = vs.toList.findSome? (checkValue cfg · (d + 1)) := by
  rw [LogicalValues.length_toList] at hlen
  rw [checkValue, atDepth_of_depthOk hd, lengthError_eq_none hlen, Option.none_or, checkValues_eq_findSome?]

/-- A map of a length a head carries: its first key or value that fails, then the duplicate test. -/
theorem checkValue_map (hd : DepthOk cfg d) {ps : LogicalPairs} (hlen : ps.toList.length < 2 ^ 64) :
    checkValue cfg (.map ps) d = (ps.toList.findSome? (checkPair cfg (d + 1))).or
      (if hasDuplicateKey ps.keys then some .duplicateKey else none) := by
  rw [LogicalPairs.length_toList] at hlen
  rw [checkValue, atDepth_of_depthOk hd, lengthError_eq_none hlen, Option.none_or, checkPairs_eq_findSome?]

theorem checkValue_array_long (hd : DepthOk cfg d) {vs : LogicalValues} (hlen : 2 ^ 64 ≤ vs.toList.length) :
    checkValue cfg (.array vs) d = some .outOfRange := by
  rw [LogicalValues.length_toList] at hlen
  rw [checkValue, atDepth_of_depthOk hd, lengthError_eq_outOfRange hlen, Option.some_or]

theorem checkValue_map_long (hd : DepthOk cfg d) {ps : LogicalPairs} (hlen : 2 ^ 64 ≤ ps.toList.length) :
    checkValue cfg (.map ps) d = some .outOfRange := by
  rw [LogicalPairs.length_toList] at hlen
  rw [checkValue, atDepth_of_depthOk hd, lengthError_eq_outOfRange hlen, Option.some_or]

theorem checkPair_eq_none_iff {p : LogicalValue × LogicalValue} :
    checkPair cfg d p = none ↔ checkValue cfg p.1 d = none ∧ checkValue cfg p.2 d = none := by
  rw [checkPair, Option.or_eq_none_iff]

/-- A value the check accepts is not too deep. -/
theorem depthOk_of_checkValue {v : LogicalValue} (h : checkValue cfg v d = none) : DepthOk cfg d := by
  by_contra hd
  rw [checkValue_of_not_depthOk hd] at h
  cases h

/-- The arrays and maps the check accepts. -/
theorem checkValue_array_eq_none_iff {vs : LogicalValues} : checkValue cfg (.array vs) d = none ↔
    DepthOk cfg d ∧ vs.toList.length < 2 ^ 64 ∧ ∀ v ∈ vs.toList, checkValue cfg v (d + 1) = none := by
  constructor
  · intro h
    have hd := depthOk_of_checkValue h
    obtain hlen | hlen := Nat.lt_or_ge vs.toList.length (2 ^ 64)
    · rw [checkValue_array hd hlen, List.findSome?_eq_none_iff] at h
      exact ⟨hd, hlen, h⟩
    · rw [checkValue_array_long hd hlen] at h
      cases h
  · rintro ⟨hd, hlen, h⟩
    rwa [checkValue_array hd hlen, List.findSome?_eq_none_iff]

theorem checkValue_map_eq_none_iff {ps : LogicalPairs} : checkValue cfg (.map ps) d = none ↔
    DepthOk cfg d ∧ ps.toList.length < 2 ^ 64 ∧
      (∀ p ∈ ps.toList, checkValue cfg p.1 (d + 1) = none ∧ checkValue cfg p.2 (d + 1) = none) ∧
      hasDuplicateKey ps.keys = false := by
  simp only [← checkPair_eq_none_iff]
  constructor
  · intro h
    have hd := depthOk_of_checkValue h
    obtain hlen | hlen := Nat.lt_or_ge ps.toList.length (2 ^ 64)
    · rw [checkValue_map hd hlen, Option.or_eq_none_iff, List.findSome?_eq_none_iff] at h
      exact ⟨hd, hlen, h.1, by simpa using h.2⟩
    · rw [checkValue_map_long hd hlen] at h
      cases h
  · rintro ⟨hd, hlen, h, hdup⟩
    rw [checkValue_map hd hlen, List.findSome?_eq_none_iff.2 h, hdup]
    rfl

end

/-! ## What ENCODE answers -/

theorem exec_encode_eq_iff {s : State} {v : LogicalValue} {r : Result} :
    exec (.encode v) s = .next (s.answer r) ↔ encodeResult s.codec v = r :=
  ⟨fun h => s.answer_inj (Host.Outcome.next.inj h), fun h => congrArg (fun r => Host.Outcome.next (s.answer r)) h⟩

theorem exec_encode_err_iff {s : State} {v : LogicalValue} {x : OpError} :
    exec (.encode v) s = .next (s.answer (.err x)) ↔ checkValue s.codec v 1 = some x := by
  rw [exec_encode_eq_iff, encodeResult]
  cases checkValue s.codec v 1 <;> simp

theorem exec_encode_encoded_iff {s : State} {v : LogicalValue} {e : Octets} :
    exec (.encode v) s = .next (s.answer (.ok (.encoded e))) ↔
      checkValue s.codec v 1 = none ∧ enc s.codec.negKeyOrder v = e := by
  rw [exec_encode_eq_iff, encodeResult]
  cases checkValue s.codec v 1 <;> simp

/-- Settles O30: the check of a value without children is its own range or length, and `enc` writes each kind. -/
theorem encodeScalars : Obligations.EncodeScalars := by
  intro s hdepth
  have hd := depthOk_one hdepth
  refine ⟨fun n hn => ?unsigned, fun n hn => ?negative, fun z hz => ?range, fun b hb => ⟨?bytes, ?text⟩,
    fun b hb => ⟨?longBytes, ?longText⟩, ?false, ?true, fun k => ?other⟩
  case unsigned =>
    refine exec_encode_encoded_iff.2 ⟨?_, ?_⟩
    · rw [checkValue_int hd, intError_eq, if_pos (by omega)]
    · rw [enc, encInt, if_pos (by omega), Int.toNat_natCast]
  case negative =>
    refine exec_encode_encoded_iff.2 ⟨?_, ?_⟩
    · rw [checkValue_int hd, intError_eq, if_pos (by omega)]
    · rw [enc, encInt, if_neg (by omega), show (-1 - (-1 - (n : Int))).toNat = n from by omega]
  case range =>
    refine exec_encode_err_iff.2 ?_
    rw [checkValue_int hd, intError_eq, if_neg (by omega)]
  case bytes =>
    exact exec_encode_encoded_iff.2 ⟨(checkValue_bytes hd b).trans (lengthError_eq_none hb), by rw [enc]⟩
  case text =>
    exact exec_encode_encoded_iff.2 ⟨(checkValue_text hd b).trans (lengthError_eq_none hb), by rw [enc]⟩
  case longBytes => exact exec_encode_err_iff.2 ((checkValue_bytes hd b).trans (lengthError_eq_outOfRange hb))
  case longText => exact exec_encode_err_iff.2 ((checkValue_text hd b).trans (lengthError_eq_outOfRange hb))
  case false => exact exec_encode_encoded_iff.2 ⟨checkValue_bool hd _, by rw [enc]; rfl⟩
  case true => exact exec_encode_encoded_iff.2 ⟨checkValue_bool hd _, by rw [enc]; rfl⟩
  case other => exact exec_encode_err_iff.2 (checkValue_other ..)

/-- The first element that fails decides. -/
theorem findSome?_append_cons {α : Type} {f : α → Option OpError} {l m : List α} {v : α} {x : OpError}
    (hl : ∀ u ∈ l, f u = none) (hv : f v = some x) : (l ++ v :: m).findSome? f = some x := by
  rw [List.findSome?_append, List.findSome?_eq_none_iff.2 hl, Option.none_or, List.findSome?_cons, hv]

/-- Settles O34: the check at a node by the node's kind, each list by its first element that fails. -/
theorem encodeReportsFirstError : Obligations.EncodeReportsFirstError := by
  intro cfg
  refine ⟨?_, fun d => ⟨checkValue_of_not_depthOk, fun hd => ⟨fun z => ?int, fun b => ⟨?bytes, ?text⟩,
    checkValue_bool hd, checkValue_other cfg d, fun vs => checkValue_array_long hd, fun l m v x hlen hl hv => ?element,
    fun vs hlen h => checkValue_array_eq_none_iff.2 ⟨hd, hlen, h⟩, fun ps => checkValue_map_long hd,
    fun l m k v x hlen hl hx => ?pair, fun ps hlen h => ⟨fun hdup => ?duplicate, fun hnew => ?clean⟩⟩⟩⟩
  · rintro s v rfl
    exact ⟨fun x => exec_encode_err_iff, fun h => exec_encode_encoded_iff.2 ⟨h, rfl⟩⟩
  case int => rw [checkValue_int hd, intError_eq]
  case bytes => rw [checkValue_bytes hd, lengthError_eq]
  case text => rw [checkValue_text hd, lengthError_eq]
  case element =>
    rw [checkValue_array hd (by rwa [LogicalValues.toList_ofList]), LogicalValues.toList_ofList]
    exact findSome?_append_cons hl hv
  case pair =>
    have hpair : checkPair cfg (d + 1) (k, v) = some x := by
      obtain hk | ⟨hk, hv⟩ := hx <;> simp only [checkPair, hk, Option.some_or, Option.none_or]
      exact hv
    rw [checkValue_map hd (by rwa [LogicalPairs.toList_ofList]), LogicalPairs.toList_ofList,
      findSome?_append_cons (fun p hp => checkPair_eq_none_iff.2 (hl p hp)) hpair, Option.some_or]
  case duplicate =>
    rw [checkValue_map hd hlen, List.findSome?_eq_none_iff.2 fun p hp => checkPair_eq_none_iff.2 (h p hp),
      (hasDuplicateKey_iff ps.keys).2 hdup]
    rfl
  case clean =>
    refine checkValue_map_eq_none_iff.2 ⟨hd, hlen, h, Bool.eq_false_iff.2 fun hdup => ?_⟩
    obtain ⟨i, j, a, b, hij, ha, hb, heq⟩ := (hasDuplicateKey_iff ps.keys).1 hdup
    rw [hnew i j a b hij ha hb] at heq
    cases heq

/-! ## `CborValue`s and their depths (R25, R119) -/

theorem areCbor_iff : ∀ vs : LogicalValues, areCbor vs = true ↔ ∀ v ∈ vs.toList, isCbor v = true
  | .nil => by simp [areCbor, LogicalValues.toList]
  | .cons v vs => by simp [areCbor, LogicalValues.toList, areCbor_iff vs]

theorem pairsCbor_iff : ∀ ps : LogicalPairs,
    pairsCbor ps = true ↔ ∀ p ∈ ps.toList, isCbor p.1 = true ∧ isCbor p.2 = true
  | .nil => by simp [pairsCbor, LogicalPairs.toList]
  | .cons k v ps => by
    rw [pairsCbor, LogicalPairs.toList, List.forall_mem_cons, ← pairsCbor_iff ps, Bool.and_eq_true, Bool.and_eq_true]

theorem isCbor_array_iff {vs : LogicalValues} : isCbor (.array vs) = true ↔
    vs.toList.length < 2 ^ 64 ∧ ∀ v ∈ vs.toList, isCbor v = true := by
  rw [isCbor, Bool.and_eq_true, areCbor_iff, decide_eq_true_iff, LogicalValues.length_toList]

theorem isCbor_map_iff {ps : LogicalPairs} : isCbor (.map ps) = true ↔
    ps.toList.length < 2 ^ 64 ∧ (∀ p ∈ ps.toList, isCbor p.1 = true ∧ isCbor p.2 = true) ∧
      hasDuplicateKey ps.keys = false := by
  rw [isCbor, Bool.and_eq_true, Bool.and_eq_true, pairsCbor_iff, decide_eq_true_iff, Bool.not_eq_true',
    LogicalPairs.length_toList, and_assoc]

theorem tooDeep_max (cfg : CodecConfig) (a b : Nat) : tooDeep cfg (max a b) = (tooDeep cfg a || tooDeep cfg b) := by
  unfold tooDeep
  split
  · rfl
  · rw [Bool.eq_iff_iff, Bool.or_eq_true, decide_eq_true_iff, decide_eq_true_iff, decide_eq_true_iff, lt_max_iff]

/-- A container is too deep where its own node is, or an element. -/
theorem tooDeep_depthOfAll (cfg : CodecConfig) (d : Nat) : ∀ vs : LogicalValues, tooDeep cfg (d + depthOfAll vs) =
    (tooDeep cfg d || vs.toList.any fun v => tooDeep cfg (d + depthOf v))
  | .nil => by simp [depthOfAll, LogicalValues.toList]
  | .cons v vs => by
    rw [depthOfAll, ← Nat.add_max_add_left, tooDeep_max, tooDeep_depthOfAll cfg d vs, LogicalValues.toList,
      List.any_cons, Bool.or_left_comm]

theorem tooDeep_depthOfPairs (cfg : CodecConfig) (d : Nat) : ∀ ps : LogicalPairs, tooDeep cfg (d + depthOfPairs ps) =
    (tooDeep cfg d || ps.toList.any fun p => tooDeep cfg (d + depthOf p.1) || tooDeep cfg (d + depthOf p.2))
  | .nil => by simp [depthOfPairs, LogicalPairs.toList]
  | .cons k v ps => by
    rw [depthOfPairs, ← Nat.add_max_add_left, ← Nat.add_max_add_left, tooDeep_max, tooDeep_max,
      tooDeep_depthOfPairs cfg d ps, LogicalPairs.toList, List.any_cons, Bool.or_left_comm]

/-- Where each element has the error x or none, so has the list. -/
theorem findSome?_eq_ite_any {α : Type} {f : α → Option OpError} {p : α → Bool} {x : OpError} :
    ∀ {l : List α}, (∀ u ∈ l, f u = if p u then some x else none) →
      l.findSome? f = if l.any p then some x else none
  | [], _ => rfl
  | u :: l, h => by
    obtain ⟨hu, hl⟩ := List.forall_mem_cons.1 h
    rw [List.findSome?_cons, hu, List.any_cons, findSome?_eq_ite_any hl]
    cases p u <;> rfl

/-- The depth test in front of a check whose only error is that something is too deep. -/
theorem atDepth_ite (cfg : CodecConfig) (d : Nat) (p : Bool) :
    atDepth cfg d (if p then some .unsupported else none) =
      if tooDeep cfg d || p then some .unsupported else none := by
  rw [atDepth]
  cases tooDeep cfg d <;> rfl

/-- The only error of a `CborValue` is that it is too deep (R119). -/
theorem checkValue_of_isCbor (cfg : CodecConfig) {v : LogicalValue} (h : isCbor v = true) (d : Nat) :
    checkValue cfg v (d + 1) = if tooDeep cfg (d + depthOf v) then some .unsupported else none := by
  induction v using LogicalValue.induction_mem generalizing d with
  | int z =>
    rw [checkValue, intError_eq, if_pos (of_decide_eq_true h)]
    rfl
  | bytes b =>
    rw [checkValue, lengthError_eq_none (of_decide_eq_true h)]
    rfl
  | text b =>
    rw [checkValue, lengthError_eq_none (of_decide_eq_true (Bool.and_eq_true_iff.1 h).1)]
    rfl
  | bool t => rfl
  | other k => cases h
  | array vs ih =>
    obtain ⟨hlen, hvs⟩ := isCbor_array_iff.1 h
    rw [LogicalValues.length_toList] at hlen
    rw [checkValue, lengthError_eq_none hlen, Option.none_or, checkValues_eq_findSome?,
      findSome?_eq_ite_any fun v hv => ih v hv (hvs v hv) (d + 1), atDepth_ite, depthOf, ← Nat.add_assoc,
      Nat.add_right_comm, tooDeep_depthOfAll]
  | map ps ih =>
    obtain ⟨hlen, hps, hdup⟩ := isCbor_map_iff.1 h
    rw [LogicalPairs.length_toList] at hlen
    have hpair : ∀ p ∈ ps.toList, checkPair cfg (d + 1 + 1) p =
        if tooDeep cfg (d + 1 + depthOf p.1) || tooDeep cfg (d + 1 + depthOf p.2) then some .unsupported else none := by
      intro p hp
      rw [checkPair, (ih p hp).1 (hps p hp).1 (d + 1), (ih p hp).2 (hps p hp).2 (d + 1)]
      cases tooDeep cfg (d + 1 + depthOf p.1) <;> cases tooDeep cfg (d + 1 + depthOf p.2) <;> rfl
    rw [checkValue, lengthError_eq_none hlen, Option.none_or, checkPairs_eq_findSome?, findSome?_eq_ite_any hpair, hdup,
      if_neg Bool.false_ne_true, Option.or_none, atDepth_ite, depthOf, ← Nat.add_assoc, Nat.add_right_comm,
      tooDeep_depthOfPairs]

/-- The check accepts a `CborValue` within MAX_DEPTH. -/
theorem checkValue_eq_none_of_isCbor {cfg : CodecConfig} {v : LogicalValue} {d : Nat} (h : isCbor v = true)
    (hd : DepthOk cfg (d + depthOf v)) : checkValue cfg v (d + 1) = none := by
  rw [checkValue_of_isCbor cfg h, depthOk_iff.1 hd, if_neg Bool.false_ne_true]

/-! ## The values of items -/

/-- An argument is below 2^64 (R72). -/
theorem headAt_lt {b : Octets} {p mt arg q : Nat} (h : HeadAt b p mt arg q) : arg < 2 ^ 64 := by
  obtain ⟨ib, -, ⟨ai, hai, -, rfl, -⟩ | ⟨j, hj, -, hq, hlen, rfl⟩⟩ := h
  · omega
  · have hlength : (slice b (p + 1) q).length ≤ 8 := by
      rw [length_slice hlen, hq, Nat.add_sub_cancel_left]
      exact Nat.pow_le_pow_right (n := 2) (by decide) hj
    calc uintBe (slice b (p + 1) q) < 256 ^ (slice b (p + 1) q).length := uintBe_lt _
      _ ≤ 256 ^ 8 := Nat.pow_le_pow_right (by decide) hlength
      _ = 2 ^ 64 := by norm_num

/-- Depth d and the n levels below it are allowed. -/
def LevelsOk (cfg : CodecConfig) (d n : Nat) : Prop := ∀ k, cfg.maxDepth = some k → d + n ≤ k + 1

theorem levelsOk_one {cfg : CodecConfig} {d : Nat} (hd : DepthOk cfg d) : LevelsOk cfg d 1 :=
  fun k hk => Nat.succ_le_succ (hd k hk)

theorem levelsOk_max {cfg : CodecConfig} {d m n : Nat} (hm : LevelsOk cfg d m) (hn : LevelsOk cfg d n) :
    LevelsOk cfg d (max m n) := by
  intro k hk
  rw [← Nat.add_max_add_left]
  exact max_le (hm k hk) (hn k hk)

/-- The node of a container, and the levels of its elements. -/
theorem levelsOk_container {cfg : CodecConfig} {d n : Nat} (hd : DepthOk cfg d)
    (h : LevelsOk cfg (d + 1) 0 → LevelsOk cfg (d + 1) n) : LevelsOk cfg d (n + 1) := by
  intro k hk
  have hn := h (levelsOk_one hd) k hk
  omega

/-- A run of pairs has no key `≈` to an earlier one, or to one seen before. -/
def KeysNew (seen : List LogicalValue) (ps : LogicalPairs) : Prop :=
  hasDuplicateKey ps.keys = false ∧ ∀ k' ∈ seen, ∀ k ∈ ps.keys, k'.equiv k = false

theorem keysNew_cons {seen : List LogicalValue} {k v : LogicalValue} {ps : LogicalPairs}
    (hk : ∀ k' ∈ seen, k'.equiv k = false) (h : KeysNew (seen ++ [k]) ps) : KeysNew seen (.cons k v ps) := by
  obtain ⟨hdup, hnew⟩ := h
  constructor
  · have hany : ps.keys.any (fun k' => k.equiv k') = false :=
      List.any_eq_false.2 fun k' hk' => Bool.eq_false_iff.1 (hnew k (by simp) k' hk')
    rw [LogicalPairs.keys, hasDuplicateKey, hany, hdup]
    rfl
  · intro k' hk'
    exact List.forall_mem_cons.2 ⟨hk k' hk', hnew k' (List.mem_append_left _ hk')⟩

mutual

/-- What an item is worth is a `CborValue` within MAX_DEPTH (R25, R160, R164). -/
theorem ItemAt.isCbor {cfg : CodecConfig} {b : Octets} {p d : Nat} {v : LogicalValue} {q : Nat} :
    ItemAt cfg b p d v q → Machine.isCbor v = true ∧ LevelsOk cfg d (depthOf v)
  | .uint hd hh => by
    have hlt := headAt_lt hh
    exact ⟨decide_eq_true (by omega), levelsOk_one hd⟩
  | .nint hd hh => by
    have hlt := headAt_lt hh
    exact ⟨decide_eq_true (by omega), levelsOk_one hd⟩
  | .bytes hd hh hl => by
    have hlt := headAt_lt hh
    exact ⟨decide_eq_true (by rw [length_slice hl]; omega), levelsOk_one hd⟩
  | .text hd hh hl hu => by
    have hlt := headAt_lt hh
    exact ⟨Bool.and_eq_true_iff.2 ⟨decide_eq_true (by rw [length_slice hl]; omega), hu⟩, levelsOk_one hd⟩
  | .array hd hh he => by
    obtain ⟨hcbor, hlen, hlevels⟩ := he.areCbor
    exact ⟨Bool.and_eq_true_iff.2 ⟨decide_eq_true (hlen ▸ headAt_lt hh), hcbor⟩, levelsOk_container hd hlevels⟩
  | .map hd hh he => by
    obtain ⟨hcbor, hlen, ⟨hdup, -⟩, hlevels⟩ := he.pairsCbor
    refine ⟨?_, levelsOk_container hd hlevels⟩
    rw [Machine.isCbor, decide_eq_true (hlen ▸ headAt_lt hh), hcbor, hdup]
    rfl
  | .false hd _ => ⟨rfl, levelsOk_one hd⟩
  | .true hd _ => ⟨rfl, levelsOk_one hd⟩

theorem ElementsAt.areCbor {cfg : CodecConfig} {b : Octets} {n p d : Nat} {vs : LogicalValues} {q : Nat} :
    ElementsAt cfg b n p d vs q →
      Machine.areCbor vs = true ∧ vs.length = n ∧ (LevelsOk cfg d 0 → LevelsOk cfg d (depthOfAll vs))
  | .nil => ⟨rfl, rfl, id⟩
  | .cons hv hs => by
    obtain ⟨hcbor, hlevels⟩ := hv.isCbor
    obtain ⟨hcbors, hlen, hmore⟩ := hs.areCbor
    exact ⟨Bool.and_eq_true_iff.2 ⟨hcbor, hcbors⟩, congrArg Nat.succ hlen, fun h0 => levelsOk_max hlevels (hmore h0)⟩

theorem PairsAt.pairsCbor {cfg : CodecConfig} {b : Octets} {n : Nat} {seen : List LogicalValue} {p d : Nat}
    {ps : LogicalPairs} {q : Nat} : PairsAt cfg b n seen p d ps q →
      Machine.pairsCbor ps = true ∧ ps.length = n ∧ KeysNew seen ps ∧
        (LevelsOk cfg d 0 → LevelsOk cfg d (depthOfPairs ps))
  | .nil => ⟨rfl, rfl, ⟨rfl, fun _ _ _ h => nomatch h⟩, id⟩
  | .cons hk hn hv hs => by
    obtain ⟨hkcbor, hklevels⟩ := hk.isCbor
    obtain ⟨hvcbor, hvlevels⟩ := hv.isCbor
    obtain ⟨hcbors, hlen, hnew, hmore⟩ := hs.pairsCbor
    exact ⟨Bool.and_eq_true_iff.2 ⟨Bool.and_eq_true_iff.2 ⟨hkcbor, hvcbor⟩, hcbors⟩, congrArg Nat.succ hlen,
      keysNew_cons hn hnew, fun h0 => levelsOk_max (levelsOk_max hklevels hvlevels) (hmore h0)⟩

end

/-- The outermost item's levels. -/
theorem depthOk_depthOf {cfg : CodecConfig} {b : Octets} {p : Nat} {v : LogicalValue} {q : Nat}
    (h : ItemAt cfg b p 1 v q) : DepthOk cfg (depthOf v) := by
  intro k hk
  have hlevels := h.isCbor.2 k hk
  omega

/-- Settles O26: what an item is worth is a `CborValue` within MAX_DEPTH, which the check accepts. -/
theorem decodedValueIsCborAndEncodes : Obligations.DecodedValueIsCborAndEncodes := by
  intro s b v n h
  have hitem := decodeOp_eq_decoded_iff.1 h
  have hcbor := hitem.isCbor.1
  have hdepth := depthOk_depthOf hitem
  obtain ⟨hmin, hmax⟩ := item_bounds _ _ _ (itemAt_eq_ok hitem)
  have hcheck : checkValue s.codec v 1 = none := checkValue_eq_none_of_isCbor (d := 0) hcbor (by rwa [Nat.zero_add])
  exact ⟨hcbor, hdepth, hmin, hmax, exec_encode_encoded_iff.2 ⟨hcheck, rfl⟩⟩

mutual

/-- An item stays one where MAX_DEPTH is unbounded. -/
theorem ItemAt.unbounded {cfg : CodecConfig} {b : Octets} {p d : Nat} {v : LogicalValue} {q : Nat} :
    ItemAt cfg b p d v q → ItemAt { cfg with maxDepth := none } b p d v q
  | .uint _ hh => .uint nofun hh
  | .nint _ hh => .nint nofun hh
  | .bytes _ hh hl => .bytes nofun hh hl
  | .text _ hh hl hu => .text nofun hh hl hu
  | .array _ hh he => .array nofun hh he.unbounded
  | .map _ hh he => .map nofun hh he.unbounded
  | .false _ hb => .false nofun hb
  | .true _ hb => .true nofun hb

theorem ElementsAt.unbounded {cfg : CodecConfig} {b : Octets} {n p d : Nat} {vs : LogicalValues} {q : Nat} :
    ElementsAt cfg b n p d vs q → ElementsAt { cfg with maxDepth := none } b n p d vs q
  | .nil => .nil
  | .cons hv hs => .cons hv.unbounded hs.unbounded

theorem PairsAt.unbounded {cfg : CodecConfig} {b : Octets} {n : Nat} {seen : List LogicalValue} {p d : Nat}
    {ps : LogicalPairs} {q : Nat} :
    PairsAt cfg b n seen p d ps q → PairsAt { cfg with maxDepth := none } b n seen p d ps q
  | .nil => .nil
  | .cons hk hn hv hs => .cons hk.unbounded hn hv.unbounded hs.unbounded

end

/-- At one offset and depth stands at most one item. -/
theorem ItemAt.unique {cfg : CodecConfig} {b : Octets} {p d : Nat} {v v' : LogicalValue} {q q' : Nat}
    (h : ItemAt cfg b p d v q) (h' : ItemAt cfg b p d v' q') : v = v' ∧ q = q' := by
  have heq := (itemAt_eq_ok h).symm.trans (itemAt_eq_ok h')
  cases heq
  exact ⟨rfl, rfl⟩

/-- Settles O35: the only error of a `CborValue` is its depth; and an item that DECODE returned would be the deeper one,
which the format does not have at a finite MAX_DEPTH. -/
theorem nestingDepthIsLimited : Obligations.NestingDepthIsLimited := by
  intro s k hk
  constructor
  · intro v hcbor hdeep
    have htoo : tooDeep s.codec (0 + depthOf v) = true := by
      rw [tooDeep, hk, Nat.zero_add]
      exact decide_eq_true hdeep
    exact exec_encode_err_iff.2 ((checkValue_of_isCbor s.codec hcbor 0).trans (if_pos htoo))
  · intro b v q hitem hdeep
    cases hread : itemAt s.codec b 0 1 with
    | error p => exact ⟨p, decodeOp_eq_invalidCbor_iff.2 (itemAt_eq_error_iff.1 hread)⟩
    | ok x =>
      obtain ⟨v', q'⟩ := x
      have hitem' := itemAt_eq_ok_iff.1 hread
      obtain ⟨rfl, -⟩ := hitem.unique hitem'.unbounded
      exact absurd (depthOk_depthOf hitem' k hk) (Nat.not_le.2 hdeep)

end Sys2Proof.Machine
end

section
/-! SUPPORT. The canonical key order as an order of numbers, and the entries of a map sorted by it
(spec/40_cbor_encode.md R116, R120-R122). -/

namespace Sys2Proof.Machine

/-! ## Octet strings by length, then octet by octet -/

/-- Two numbers written in base m, high digit first. -/
theorem digit_lt_iff {m x y u w : Nat} (hu : u < m) (hw : w < m) :
    x * m + u < y * m + w ↔ x < y ∨ (x = y ∧ u < w) := by
  obtain hlt | rfl | hgt := Nat.lt_trichotomy x y
  · have h : (x + 1) * m ≤ y * m := Nat.mul_le_mul_right m hlt
    rw [Nat.add_mul] at h
    omega
  · omega
  · have h : (y + 1) * m ≤ x * m := Nat.mul_le_mul_right m hgt
    rw [Nat.add_mul] at h
    omega

/-- On strings of one length the lexicographic order is that of the big-endian numbers. -/
theorem lexLt_iff : ∀ {x y : Octets}, x.length = y.length → (lexLt x y = true ↔ uintBe x < uintBe y)
  | [], [], _ => by simp [lexLt]
  | a :: x, b :: y, h => by
    have hlen := Nat.succ.inj h
    have hx := uintBe_lt x
    have hy := uintBe_lt y
    rw [← hlen] at hy
    rw [uintBe_cons, uintBe_cons, ← hlen, digit_lt_iff hx hy, lexLt]
    split
    · rename_i hab
      subst hab
      simp [lexLt_iff hlen]
    · rename_i hab
      have hne : a.toNat ≠ b.toNat := fun e => hab (BitVec.eq_of_toNat_eq e)
      simp [hne]

/-- The number of a string with a 1 before it: it grows with the length, then octet by octet. -/
def octetsRank (x : Octets) : Nat := 256 ^ x.length + uintBe x

theorem octetsRank_lt_of_length_lt {x y : Octets} (h : x.length < y.length) : octetsRank x < octetsRank y := by
  have hx := uintBe_lt x
  have hpow : 256 ^ x.length * 256 ≤ 256 ^ y.length := by
    rw [← pow_succ]
    exact Nat.pow_le_pow_right (by decide) h
  rw [octetsRank, octetsRank]
  omega

theorem octetsLt_iff {x y : Octets} : octetsLt x y = true ↔ octetsRank x < octetsRank y := by
  rw [octetsLt]
  split
  · rename_i hlen
    rw [lexLt_iff hlen, octetsRank, octetsRank, hlen, Nat.add_lt_add_iff_left]
  · rename_i hlen
    rw [decide_eq_true_iff]
    obtain hlt | hgt := Nat.lt_or_gt_of_ne hlen
    · exact iff_of_true hlt (octetsRank_lt_of_length_lt hlt)
    · exact iff_of_false (Nat.lt_asymm hgt) (Nat.lt_asymm (octetsRank_lt_of_length_lt hgt))

theorem octetsLt_eq_decide (x y : Octets) : octetsLt x y = decide ((octetsRank x : Int) < octetsRank y) := by
  rw [Bool.eq_iff_iff, octetsLt_iff, decide_eq_true_iff, Int.ofNat_lt]

theorem uintBe_inj : ∀ {x y : Octets}, x.length = y.length → uintBe x = uintBe y → x = y
  | [], [], _, _ => rfl
  | a :: x, b :: y, hlen, h => by
    have hlen := Nat.succ.inj hlen
    have hx := uintBe_lt x
    have hy := uintBe_lt y
    rw [← hlen] at hy
    rw [uintBe_cons, uintBe_cons, ← hlen] at h
    have hlt := (not_congr (digit_lt_iff hx hy)).1 (Nat.not_lt.2 (Nat.le_of_eq h.symm))
    have hgt := (not_congr (digit_lt_iff hy hx)).1 (Nat.not_lt.2 (Nat.le_of_eq h))
    rw [BitVec.eq_of_toNat_eq (show a.toNat = b.toNat by omega), uintBe_inj hlen (by omega)]

theorem octetsRank_inj {x y : Octets} (h : octetsRank x = octetsRank y) : x = y := by
  have hlen : x.length = y.length := by
    obtain hlt | heq | hgt := Nat.lt_trichotomy x.length y.length
    · exact absurd h (Nat.ne_of_lt (octetsRank_lt_of_length_lt hlt))
    · exact heq
    · exact absurd h.symm (Nat.ne_of_lt (octetsRank_lt_of_length_lt hgt))
  rw [octetsRank, octetsRank, hlen] at h
  exact uintBe_inj hlen (Nat.add_left_cancel h)

/-! ## Keys -/

/-- The place of a key among those of its major type. -/
def keyRank (ord : NegKeyOrder) (e : Entry) : Int :=
  match e.key with
  | .int z => if 0 ≤ z then z else match ord with | .numeric => z | .encoded => -z
  | .bytes x => octetsRank x
  | .text x => octetsRank x
  | _ => octetsRank e.keyOctets

theorem keyMajor_int_le (z : Int) : keyMajor (.int z) ≤ 1 := by
  rw [keyMajor]
  split <;> decide

/-- Two values of one kind, integers also of one sign. -/
inductive SameKind : LogicalValue → LogicalValue → Prop where
  | int (x y : Int) (h : 0 ≤ x ↔ 0 ≤ y) : SameKind (.int x) (.int y)
  | bytes (x y : Octets) : SameKind (.bytes x) (.bytes y)
  | text (x y : Octets) : SameKind (.text x) (.text y)
  | array (us vs : LogicalValues) : SameKind (.array us) (.array vs)
  | map (ps qs : LogicalPairs) : SameKind (.map ps) (.map qs)
  | bool (s t : Bool) : SameKind (.bool s) (.bool t)
  | other (k l : Nat) : SameKind (.other k) (.other l)

/-- The major type tells the kinds apart, and the signs of integers. -/
theorem sameKind_of_keyMajor_eq {a b : LogicalValue} (h : keyMajor a = keyMajor b) : SameKind a b := by
  have hint : ∀ {z : Int} {w : LogicalValue}, keyMajor (.int z) = keyMajor w → keyMajor w ≤ 1 :=
    fun h => h.ge.trans (keyMajor_int_le _)
  cases a with
  | int x =>
    cases b with
    | int y =>
      refine .int x y ?_
      by_cases hx : 0 ≤ x <;> by_cases hy : 0 ≤ y <;> simp [keyMajor, hx, hy] at h ⊢
    | bytes _ | text _ | array _ | map _ | bool _ | other _ => exact absurd (hint h) (by simp [keyMajor])
  | bytes x =>
    cases b with
    | int y => exact absurd (hint h.symm) (by simp [keyMajor])
    | bytes y => exact .bytes x y
    | text _ | array _ | map _ | bool _ | other _ => cases h
  | text x =>
    cases b with
    | int y => exact absurd (hint h.symm) (by simp [keyMajor])
    | text y => exact .text x y
    | bytes _ | array _ | map _ | bool _ | other _ => cases h
  | array us =>
    cases b with
    | int y => exact absurd (hint h.symm) (by simp [keyMajor])
    | array vs => exact .array us vs
    | bytes _ | text _ | map _ | bool _ | other _ => cases h
  | map ps =>
    cases b with
    | int y => exact absurd (hint h.symm) (by simp [keyMajor])
    | map qs => exact .map ps qs
    | bytes _ | text _ | array _ | bool _ | other _ => cases h
  | bool s =>
    cases b with
    | int y => exact absurd (hint h.symm) (by simp [keyMajor])
    | bool t => exact .bool s t
    | bytes _ | text _ | array _ | map _ | other _ => cases h
  | other k =>
    cases b with
    | int y => exact absurd (hint h.symm) (by simp [keyMajor])
    | other l => exact .other k l
    | bytes _ | text _ | array _ | map _ | bool _ => cases h

/-- Keys of one major type are ordered by their places in it. -/
theorem keyLt_of_major_eq {ord : NegKeyOrder} {a b : Entry} (h : keyMajor a.key = keyMajor b.key) :
    keyLt ord a b = decide (keyRank ord a < keyRank ord b) := by
  obtain ⟨ka, oa, va⟩ := a
  obtain ⟨kb, ob, vb⟩ := b
  rw [keyLt, if_neg (not_not_intro h)]
  cases sameKind_of_keyMajor_eq h with
  | int x y hsign =>
    by_cases hx : 0 ≤ x
    · simp [keyRank, hx, hsign.1 hx]
    · cases ord <;> simp [keyRank, negLt, hx, mt hsign.2 hx]
  | bytes x y => exact octetsLt_eq_decide x y
  | text x y => exact octetsLt_eq_decide x y
  | array _ _ | map _ _ | bool _ _ | other _ _ => exact octetsLt_eq_decide oa ob

/-- Arrays, maps and booleans are placed by their encodings (R121). -/
theorem keyRank_of_four_le {ord : NegKeyOrder} {e : Entry} (h : 4 ≤ keyMajor e.key) :
    keyRank ord e = octetsRank e.keyOctets := by
  obtain ⟨k, o, v⟩ := e
  cases k with
  | int z => exact absurd (Nat.le_trans h (keyMajor_int_le z)) (by decide)
  | bytes _ | text _ => simp [keyMajor] at h
  | array _ | map _ | bool _ | other _ => rfl

/-- The order of keys is by the major type, then by the place in it. -/
theorem keyLt_iff {ord : NegKeyOrder} {a b : Entry} : keyLt ord a b = true ↔
    keyMajor a.key < keyMajor b.key ∨ (keyMajor a.key = keyMajor b.key ∧ keyRank ord a < keyRank ord b) := by
  by_cases h : keyMajor a.key = keyMajor b.key
  · rw [keyLt_of_major_eq h, decide_eq_true_iff, h]
    simp
  · rw [keyLt, if_pos h, decide_eq_true_iff]
    simp [h]

/-- On strings that share a beginning, the first octet that differs decides. -/
theorem octetsLt_append {p x y : Octets} {c d : Byte} (hlen : x.length = y.length) (hne : c ≠ d) :
    octetsLt (p ++ c :: x) (p ++ d :: y) = decide (c.toNat < d.toNat) := by
  have hlex : lexLt (p ++ c :: x) (p ++ d :: y) = decide (c.toNat < d.toNat) := by
    induction p with
    | nil => rw [List.nil_append, List.nil_append, lexLt, if_neg hne]
    | cons o p ih => rw [List.cons_append, List.cons_append, lexLt, if_pos rfl, ih]
  rw [octetsLt, if_pos (by simp [hlen]), hlex]

theorem octetsLt_of_length_ne {x y : Octets} (h : x.length ≠ y.length) : octetsLt x y = decide (x.length < y.length) :=
  if_neg h

/-- Settles O33: kind by kind, the case of `key_lt` for that kind. -/
theorem canonicalKeyOrder : Obligations.CanonicalKeyOrder := by
  intro ord u w e f
  refine ⟨fun a b h => if_pos h, fun x y h => ⟨octetsLt_of_length_ne h, octetsLt_of_length_ne h⟩,
    fun p x y c d hlen hne => ⟨octetsLt_append hlen hne, octetsLt_append hlen hne⟩, fun x y => ?unsigned,
    fun x y hx hy => ?negative, fun a b h hkind => ?encodings⟩
  case unsigned =>
    have hmajor : ∀ n : Nat, keyMajor (.int n) = 0 := fun n => by rw [keyMajor, if_pos (Int.natCast_nonneg n)]
    rw [keyLt_of_major_eq ((hmajor x).trans (hmajor y).symm)]
    simp [e, f, keyRank]
  case negative =>
    have hmajor : ∀ z : Int, z < 0 → keyMajor (.int z) = 1 := fun z hz => by rw [keyMajor, if_neg (Int.not_le.2 hz)]
    rw [keyLt_of_major_eq ((hmajor x hx).trans (hmajor y hy).symm)]
    cases ord <;> simp [e, f, keyRank, Int.not_le.2 hx, Int.not_le.2 hy]
  case encodings =>
    have ha : 4 ≤ keyMajor a := by omega
    have hb : 4 ≤ keyMajor b := h ▸ ha
    rw [keyLt_of_major_eq (a := e a) (b := f b) h, keyRank_of_four_le (e := e a) ha, keyRank_of_four_le (e := f b) hb,
      octetsLt_eq_decide]

/-! ## Sorting -/

/-- In a list without a descent no entry precedes one whose key is less than its own. -/
abbrev Ascending (ord : NegKeyOrder) (es : List Entry) : Prop := es.Pairwise fun a b => keyLt ord b a = false

theorem keyLt_eq_false_iff {ord : NegKeyOrder} {a b : Entry} : keyLt ord a b = false ↔
    keyMajor b.key < keyMajor a.key ∨ (keyMajor a.key = keyMajor b.key ∧ keyRank ord b ≤ keyRank ord a) := by
  rw [← Bool.not_eq_true, keyLt_iff]
  omega

theorem insertEntry_ascending {ord : NegKeyOrder} {e : Entry} : ∀ {es : List Entry}, Ascending ord es →
    Ascending ord (insertEntry ord e es)
  | [], _ => List.pairwise_singleton ..
  | x :: xs, h => by
    obtain ⟨hx, hxs⟩ := List.pairwise_cons.1 h
    rw [insertEntry]
    split
    · rename_i hlt
      refine List.pairwise_cons.2 ⟨fun y hy => ?_, insertEntry_ascending hxs⟩
      obtain rfl | hy := List.mem_cons.1 ((insertEntry_perm ord e xs).mem_iff.1 hy)
      · rw [keyLt_iff] at hlt
        rw [keyLt_eq_false_iff]
        omega
      · exact hx y hy
    · rename_i hge
      have hge := keyLt_eq_false_iff.1 (Bool.eq_false_iff.2 hge)
      refine List.pairwise_cons.2 ⟨List.forall_mem_cons.2 ⟨keyLt_eq_false_iff.2 hge, fun y hy => ?_⟩, h⟩
      have hxy := keyLt_eq_false_iff.1 (hx y hy)
      rw [keyLt_eq_false_iff]
      omega

theorem sortEntries_ascending (ord : NegKeyOrder) : ∀ es, Ascending ord (sortEntries ord es)
  | [] => List.Pairwise.nil
  | _ :: es => insertEntry_ascending (sortEntries_ascending ord es)

/-- A map entry from a pair. -/
def entryOf (ord : NegKeyOrder) (p : LogicalValue × LogicalValue) : Entry := ⟨p.1, enc ord p.1, enc ord p.2⟩

theorem encPairs_eq_map (ord : NegKeyOrder) : ∀ ps : LogicalPairs, encPairs ord ps = ps.toList.map (entryOf ord)
  | .nil => by rw [encPairs]; rfl
  | .cons k v ps => by rw [encPairs, encPairs_eq_map ord ps]; rfl

/-- R116, over the pairs as a list. -/
theorem enc_map (ord : NegKeyOrder) (ps : LogicalPairs) : enc ord (.map ps) =
    head 5 ps.toList.length ++ emitEntries (sortEntries ord (ps.toList.map (entryOf ord))) := by
  rw [enc, encPairs_eq_map, LogicalPairs.length_toList]

/-- Settles O32: the sorted entries are the entries, ascending. -/
theorem encodeMapsAscending : Obligations.EncodeMapsAscending := by
  intro s ps hcheck
  refine ⟨_, sortEntries_perm s.codec.negKeyOrder _, sortEntries_ascending s.codec.negKeyOrder _, ?_⟩
  exact exec_encode_encoded_iff.2 ⟨hcheck, enc_map s.codec.negKeyOrder ps⟩

end Sys2Proof.Machine
end

section
/-! SUPPORT. What an encoding determines: no encoding is the beginning of another, and values are `≈` exactly where
their encodings are equal (spec/10_state.md R26, 40_cbor_encode.md R110-R123). -/

namespace Sys2Proof.Machine

/-! ## Heads -/

/-- A head starts with an initial octet of its major type. -/
theorem head_eq_cons (mt : BitVec 3) (a : Nat) : ∃ ai t, head mt a = initialOctet mt ai :: t := by
  unfold head
  split
  · exact ⟨_, _, rfl⟩
  · split
    · exact ⟨_, _, rfl⟩
    · split
      · exact ⟨_, _, rfl⟩
      · split
        · exact ⟨_, _, rfl⟩
        · exact ⟨_, _, rfl⟩

/-- A head that writes its argument in the 2^j octets after the initial one is read back. -/
theorem headAt_beOctets {mt : BitVec 3} {ai : BitVec 5} {j n a : Nat} (post : Octets) (hj : j ≤ 3)
    (hai : ai.toNat = 24 + j) (hn : n = 2 ^ j) (ha : a < 256 ^ n) :
    HeadAt (initialOctet mt ai :: beOctets n a ++ post) 0 mt.toNat a (initialOctet mt ai :: beOctets n a).length := by
  have hib : (initialOctet mt ai).toNat = 32 * mt.toNat + 24 + j := by
    rw [toNat_initialOctet, majorType_initialOctet, additionalInfo_initialOctet, hai, Nat.add_assoc]
  have h := headAt_octets (tail := post) hj hib (length_beOctets n a) hn
  rwa [uintBe_beOctets ha, ← List.cons_append, ← congrArg (· + 1) (length_beOctets n a)] at h

/-- Every head is read back (R72, R73). -/
theorem headAt_head (mt : BitVec 3) {a : Nat} (ha : a < 2 ^ 64) (post : Octets) :
    HeadAt (head mt a ++ post) 0 mt.toNat a (head mt a).length := by
  obtain h | h | h | h | h : a ≤ 23 ∨ (24 ≤ a ∧ a ≤ 255) ∨ (256 ≤ a ∧ a ≤ 65535) ∨
    (65536 ≤ a ∧ a ≤ 2 ^ 32 - 1) ∨ 2 ^ 32 ≤ a := by omega
  · have hai : (BitVec.ofNat 5 a).toNat = a := by
      rw [BitVec.toNat_ofNat]
      omega
    rw [head_inline mt h]
    refine headAt_inline h ?_
    rw [toNat_initialOctet, majorType_initialOctet, additionalInfo_initialOctet, hai]
  · rw [head_one_octet mt h.1 h.2]
    exact headAt_beOctets (j := 0) post (by decide) rfl rfl (by omega)
  · rw [head_two_octets mt h.1 h.2]
    exact headAt_beOctets (j := 1) post (by decide) rfl rfl (by omega)
  · rw [head_four_octets mt h.1 h.2]
    exact headAt_beOctets (j := 2) post (by decide) rfl rfl (by omega)
  · rw [head_eight_octets mt h]
    exact headAt_beOctets (j := 3) post (by decide) rfl rfl (by omega)

/-- A head tells its argument and where it ends. -/
theorem head_append_inj {mt : BitVec 3} (hm : mt.toNat ≤ 5) {a a' : Nat} (ha : a < 2 ^ 64) (ha' : a' < 2 ^ 64)
    {x y : Octets} (h : head mt a ++ x = head mt a' ++ y) : a = a' ∧ x = y := by
  have h1 := headAt_head mt ha x
  have h2 := headAt_head mt ha' y
  rw [← h] at h2
  obtain ⟨ib, hib, -, -, harg⟩ := (headAt_iff hm).1 h1
  obtain ⟨ib', hib', -, -, harg'⟩ := (headAt_iff hm).1 h2
  cases hib.symm.trans hib'
  cases harg.symm.trans harg'
  exact ⟨rfl, List.append_cancel_left h⟩

/-! ## Values the check accepts -/

/-- The check accepts the value, at some depth and under some parameters. -/
def Accepted (v : LogicalValue) : Prop := ∃ cfg d, checkValue cfg v d = none

theorem not_accepted_other (k : Nat) : ¬Accepted (.other k) := by
  rintro ⟨cfg, d, h⟩
  rw [checkValue_other] at h
  cases h

theorem Accepted.int {z : Int} (h : Accepted (.int z)) : -(2 ^ 64) ≤ z ∧ z ≤ 2 ^ 64 - 1 := by
  obtain ⟨cfg, d, h⟩ := h
  rw [checkValue_int (depthOk_of_checkValue h), intError_eq] at h
  by_contra hz
  rw [if_neg hz] at h
  cases h

theorem length_lt_of_lengthError {n : Nat} (h : lengthError n = none) : n < 2 ^ 64 := by
  by_contra hn
  rw [lengthError_eq_outOfRange (Nat.le_of_not_lt hn)] at h
  cases h

theorem Accepted.bytes {b : Octets} (h : Accepted (.bytes b)) : b.length < 2 ^ 64 := by
  obtain ⟨cfg, d, h⟩ := h
  rw [checkValue_bytes (depthOk_of_checkValue h)] at h
  exact length_lt_of_lengthError h

theorem Accepted.text {b : Octets} (h : Accepted (.text b)) : b.length < 2 ^ 64 := by
  obtain ⟨cfg, d, h⟩ := h
  rw [checkValue_text (depthOk_of_checkValue h)] at h
  exact length_lt_of_lengthError h

theorem Accepted.array {vs : LogicalValues} (h : Accepted (.array vs)) :
    vs.toList.length < 2 ^ 64 ∧ ∀ v ∈ vs.toList, Accepted v := by
  obtain ⟨cfg, d, h⟩ := h
  obtain ⟨-, hlen, hvs⟩ := checkValue_array_eq_none_iff.1 h
  exact ⟨hlen, fun v hv => ⟨cfg, d + 1, hvs v hv⟩⟩

theorem Accepted.map {ps : LogicalPairs} (h : Accepted (.map ps)) :
    ps.toList.length < 2 ^ 64 ∧ (∀ p ∈ ps.toList, Accepted p.1 ∧ Accepted p.2) ∧ hasDuplicateKey ps.keys = false := by
  obtain ⟨cfg, d, h⟩ := h
  obtain ⟨-, hlen, hps, hdup⟩ := checkValue_map_eq_none_iff.1 h
  exact ⟨hlen, fun p hp => ⟨⟨cfg, d + 1, (hps p hp).1⟩, ⟨cfg, d + 1, (hps p hp).2⟩⟩, hdup⟩

/-! ## No encoding is the beginning of another -/

section

variable {x y : Octets}

/-- A string after its length. -/
theorem string_append_inj {mt : BitVec 3} (hm : mt.toNat ≤ 5) {b c : Octets} (hb : b.length < 2 ^ 64)
    (hc : c.length < 2 ^ 64) (h : head mt b.length ++ b ++ x = head mt c.length ++ c ++ y) : b = c ∧ x = y := by
  rw [List.append_assoc, List.append_assoc] at h
  obtain ⟨hlen, h⟩ := head_append_inj hm hb hc h
  exact List.append_inj h hlen

theorem encInt_append_inj {z w : Int} (hsign : 0 ≤ z ↔ 0 ≤ w) (hz : Accepted (.int z)) (hw : Accepted (.int w))
    (h : encInt z ++ x = encInt w ++ y) : z = w ∧ x = y := by
  have hz := hz.int
  have hw := hw.int
  by_cases h0 : 0 ≤ z
  · rw [encInt, encInt, if_pos h0, if_pos (hsign.1 h0)] at h
    obtain ⟨heq, hxy⟩ := head_append_inj (by decide) (by omega) (by omega) h
    exact ⟨by omega, hxy⟩
  · rw [encInt, encInt, if_neg h0, if_neg (mt hsign.2 h0)] at h
    obtain ⟨heq, hxy⟩ := head_append_inj (by decide) (by omega) (by omega) h
    exact ⟨by omega, hxy⟩

theorem encBool_append_inj {s t : Bool} (h : encBool s ++ x = encBool t ++ y) : s = t ∧ x = y := by
  obtain ⟨hst, hxy⟩ := List.cons.inj h
  have hinj : ∀ s t : Bool, (if s then (0xF5 : Byte) else 0xF4) = (if t then 0xF5 else 0xF4) → s = t := by decide
  exact ⟨hinj s t hst, hxy⟩

/-- Runs of as many parts, each of which tells where it ends and what `f` gives for it. -/
theorem flatMap_append_inj {α β γ : Type} {o : α → Octets} {o' : β → Octets} {f : α → γ} {f' : β → γ} :
    ∀ {l : List α} {m : List β}, (∀ u ∈ l, ∀ v ∈ m, ∀ x y, o u ++ x = o' v ++ y → f u = f' v ∧ x = y) →
      l.length = m.length → l.flatMap o ++ x = m.flatMap o' ++ y → l.map f = m.map f' ∧ x = y
  | [], [], _, _, h => ⟨rfl, h⟩
  | u :: l, v :: m, hpart, hlen, h => by
    rw [List.flatMap_cons, List.flatMap_cons, List.append_assoc, List.append_assoc] at h
    obtain ⟨hhead, h⟩ := hpart u List.mem_cons_self v List.mem_cons_self _ _ h
    obtain ⟨htail, hxy⟩ := flatMap_append_inj
      (fun u hu v hv => hpart u (List.mem_cons_of_mem _ hu) v (List.mem_cons_of_mem _ hv)) (Nat.succ.inj hlen) h
    exact ⟨by rw [List.map_cons, List.map_cons, hhead, htail], hxy⟩

/-- The first octet of an encoding tells the major type. -/
theorem enc_eq_cons (ord : NegKeyOrder) {v : LogicalValue} (hv : Accepted v) :
    ∃ ib t, enc ord v = ib :: t ∧ (majorType ib).toNat = keyMajor v := by
  have hhead : ∀ (mt : BitVec 3) a r, ∃ ib t, head mt a ++ r = ib :: t ∧ (majorType ib).toNat = mt.toNat := by
    intro mt a r
    obtain ⟨ai, t, h⟩ := head_eq_cons mt a
    exact ⟨_, _, by rw [h, List.cons_append], by rw [majorType_initialOctet]⟩
  cases v with
  | int z =>
    rw [enc, encInt, keyMajor]
    split
    · simpa using hhead 0 z.toNat []
    · simpa using hhead 1 (-1 - z).toNat []
  | bytes b =>
    rw [enc]
    exact hhead 2 _ _
  | text b =>
    rw [enc]
    exact hhead 3 _ _
  | array vs =>
    rw [enc]
    exact hhead 4 _ _
  | map ps =>
    rw [enc]
    exact hhead 5 _ _
  | bool t =>
    rw [enc, encBool]
    cases t <;> exact ⟨_, _, rfl, rfl⟩
  | other k => exact absurd hv (not_accepted_other k)

theorem sameKind_of_enc_append {ord : NegKeyOrder} {a b : LogicalValue} (ha : Accepted a) (hb : Accepted b)
    (h : enc ord a ++ x = enc ord b ++ y) : SameKind a b := by
  obtain ⟨ia, ta, hea, hma⟩ := enc_eq_cons ord ha
  obtain ⟨ib, tb, heb, hmb⟩ := enc_eq_cons ord hb
  rw [hea, heb] at h
  refine sameKind_of_keyMajor_eq ?_
  rw [← hma, ← hmb, (List.cons.inj h).1]

end

theorem enc_array_flatMap (ord : NegKeyOrder) (vs : LogicalValues) :
    enc ord (.array vs) = head 4 vs.toList.length ++ vs.toList.flatMap (enc ord) := by
  rw [enc_array, List.flatMap_def]

/-- The entries of a map in the order they are written. -/
def sortedEntries (ord : NegKeyOrder) (ps : LogicalPairs) : List Entry := sortEntries ord (ps.toList.map (entryOf ord))

theorem sortedEntries_perm (ord : NegKeyOrder) (ps : LogicalPairs) :
    (sortedEntries ord ps).Perm (ps.toList.map (entryOf ord)) := sortEntries_perm ord _

@[simp] theorem length_sortedEntries (ord : NegKeyOrder) (ps : LogicalPairs) :
    (sortedEntries ord ps).length = ps.toList.length := by
  rw [(sortedEntries_perm ord ps).length_eq, List.length_map]

theorem exists_of_mem_sortedEntries {ord : NegKeyOrder} {ps : LogicalPairs} {e : Entry} (h : e ∈ sortedEntries ord ps) :
    ∃ p ∈ ps.toList, entryOf ord p = e := List.mem_map.1 ((sortedEntries_perm ord ps).mem_iff.1 h)

theorem enc_map_flatMap (ord : NegKeyOrder) (ps : LogicalPairs) : enc ord (.map ps) =
    head 5 ps.toList.length ++ (sortedEntries ord ps).flatMap fun e => e.keyOctets ++ e.valueOctets := enc_map ord ps

/-- No encoding is the beginning of another. -/
theorem enc_append_inj {ord : NegKeyOrder} {a b : LogicalValue} (ha : Accepted a) (hb : Accepted b) {x y : Octets}
    (h : enc ord a ++ x = enc ord b ++ y) : enc ord a = enc ord b ∧ x = y := by
  induction a using LogicalValue.induction_mem generalizing b x y with
  | int z =>
    cases sameKind_of_enc_append ha hb h with
    | int _ w hsign =>
      rw [enc, enc] at h
      obtain ⟨rfl, hxy⟩ := encInt_append_inj hsign ha hb h
      exact ⟨rfl, hxy⟩
  | bytes c =>
    cases sameKind_of_enc_append ha hb h with
    | bytes _ c' =>
      rw [enc, enc] at h
      obtain ⟨rfl, hxy⟩ := string_append_inj (by decide) ha.bytes hb.bytes h
      exact ⟨rfl, hxy⟩
  | text c =>
    cases sameKind_of_enc_append ha hb h with
    | text _ c' =>
      rw [enc, enc] at h
      obtain ⟨rfl, hxy⟩ := string_append_inj (by decide) ha.text hb.text h
      exact ⟨rfl, hxy⟩
  | bool t =>
    cases sameKind_of_enc_append ha hb h with
    | bool _ t' =>
      rw [enc, enc] at h
      obtain ⟨rfl, hxy⟩ := encBool_append_inj h
      exact ⟨rfl, hxy⟩
  | other k => exact absurd ha (not_accepted_other k)
  | array us ih =>
    cases sameKind_of_enc_append ha hb h with
    | array _ vs =>
      obtain ⟨hlu, hus⟩ := ha.array
      obtain ⟨hlv, hvs⟩ := hb.array
      rw [enc_array_flatMap, enc_array_flatMap, List.append_assoc, List.append_assoc] at h
      obtain ⟨hlen, h⟩ := head_append_inj (by decide) hlu hlv h
      obtain ⟨hmap, hxy⟩ := flatMap_append_inj (fun u hu v hv x y => ih u hu (hus u hu) (hvs v hv)) hlen h
      exact ⟨by rw [enc_array, enc_array, hlen, hmap], hxy⟩
  | map ps ih =>
    cases sameKind_of_enc_append ha hb h with
    | map _ qs =>
      obtain ⟨hlp, hps, -⟩ := ha.map
      obtain ⟨hlq, hqs, -⟩ := hb.map
      rw [enc_map_flatMap, enc_map_flatMap, List.append_assoc, List.append_assoc] at h
      obtain ⟨hlen, h⟩ := head_append_inj (by decide) hlp hlq h
      have hentry : ∀ e ∈ sortedEntries ord ps, ∀ f ∈ sortedEntries ord qs, ∀ x y : Octets,
          e.keyOctets ++ e.valueOctets ++ x = f.keyOctets ++ f.valueOctets ++ y →
            e.keyOctets ++ e.valueOctets = f.keyOctets ++ f.valueOctets ∧ x = y := by
        intro e he f hf x y hef
        obtain ⟨p, hp, rfl⟩ := exists_of_mem_sortedEntries he
        obtain ⟨q, hq, rfl⟩ := exists_of_mem_sortedEntries hf
        rw [List.append_assoc, List.append_assoc] at hef
        obtain ⟨hkey, hef⟩ := (ih p hp).1 (hps p hp).1 (hqs q hq).1 hef
        obtain ⟨hvalue, hxy⟩ := (ih p hp).2 (hps p hp).2 (hqs q hq).2 hef
        exact ⟨congrArg₂ (· ++ ·) hkey hvalue, hxy⟩
      obtain ⟨hmap, hxy⟩ := flatMap_append_inj hentry (by simpa using hlen) h
      exact ⟨by rw [enc_map_flatMap, enc_map_flatMap, hlen, List.flatMap_def, List.flatMap_def, hmap], hxy⟩

theorem sameKind_of_enc_eq {ord : NegKeyOrder} {a b : LogicalValue} (ha : Accepted a) (hb : Accepted b)
    (h : enc ord a = enc ord b) : SameKind a b :=
  sameKind_of_enc_append ha hb (congrArg (· ++ []) h)

/-! ## The order of keys tells keys apart as their encodings do -/

/-- The place of a key in the canonical order: by the major type, then within it (R120). -/
def place (ord : NegKeyOrder) (e : Entry) : ℕ ×ₗ ℤ := toLex (keyMajor e.key, keyRank ord e)

theorem keyLt_eq_false_iff_place {ord : NegKeyOrder} {a b : Entry} :
    keyLt ord b a = false ↔ place ord a ≤ place ord b := by
  rw [← not_lt, ← Bool.not_eq_true, keyLt_iff, place, place, Prod.Lex.toLex_lt_toLex]

theorem keyMajor_eq_of_sameKind {a b : LogicalValue} (h : SameKind a b) : keyMajor a = keyMajor b := by
  cases h with
  | int x y hsign => simp only [keyMajor, hsign]
  | bytes _ _ | text _ _ | array _ _ | map _ _ | bool _ _ | other _ _ => rfl

/-- What a place and two encodings say of an entry. -/
def sig (ord : NegKeyOrder) (e : Entry) : (ℕ ×ₗ ℤ) × Octets × Octets := (place ord e, e.keyOctets, e.valueOctets)

section

variable {ord : NegKeyOrder}

theorem enc_int_eq_iff {z w : Int} (hsign : 0 ≤ z ↔ 0 ≤ w) (hz : Accepted (.int z)) (hw : Accepted (.int w)) :
    enc ord (.int z) = enc ord (.int w) ↔ z = w := by
  refine ⟨fun h => ?_, fun h => h ▸ rfl⟩
  rw [enc, enc] at h
  exact (encInt_append_inj hsign hz hw (congrArg (· ++ []) h)).1

theorem enc_bytes_eq_iff {b c : Octets} (hb : Accepted (.bytes b)) (hc : Accepted (.bytes c)) :
    enc ord (.bytes b) = enc ord (.bytes c) ↔ b = c := by
  refine ⟨fun h => ?_, fun h => h ▸ rfl⟩
  rw [enc, enc] at h
  exact (string_append_inj (by decide) hb.bytes hc.bytes (congrArg (· ++ []) h)).1

theorem enc_text_eq_iff {b c : Octets} (hb : Accepted (.text b)) (hc : Accepted (.text c)) :
    enc ord (.text b) = enc ord (.text c) ↔ b = c := by
  refine ⟨fun h => ?_, fun h => h ▸ rfl⟩
  rw [enc, enc] at h
  exact (string_append_inj (by decide) hb.text hc.text (congrArg (· ++ []) h)).1

theorem enc_bool_eq_iff {s t : Bool} : enc ord (.bool s) = enc ord (.bool t) ↔ s = t := by
  refine ⟨fun h => ?_, fun h => h ▸ rfl⟩
  rw [enc, enc] at h
  exact (encBool_append_inj (congrArg (· ++ []) h)).1

theorem octetsRank_cast_eq_iff {x y : Octets} : (octetsRank x : Int) = octetsRank y ↔ x = y :=
  ⟨fun h => octetsRank_inj (Int.ofNat.inj h), fun h => by rw [h]⟩

/-- Within a major type, keys stand at one place exactly where they have one encoding. -/
theorem keyRank_eq_iff {p q : LogicalValue × LogicalValue} (hk : SameKind p.1 q.1) (hp : Accepted p.1)
    (hq : Accepted q.1) : keyRank ord (entryOf ord p) = keyRank ord (entryOf ord q) ↔ enc ord p.1 = enc ord q.1 := by
  obtain ⟨a, u⟩ := p
  obtain ⟨b, w⟩ := q
  cases hk with
  | int x y hsign =>
    refine Iff.trans ?_ (enc_int_eq_iff hsign hp hq).symm
    by_cases hx : 0 ≤ x
    · simp [keyRank, entryOf, hx, hsign.1 hx]
    · cases ord <;> simp [keyRank, entryOf, hx, mt hsign.2 hx]
  | bytes x y => exact octetsRank_cast_eq_iff.trans (enc_bytes_eq_iff hp hq).symm
  | text x y => exact octetsRank_cast_eq_iff.trans (enc_text_eq_iff hp hq).symm
  | array _ _ | map _ _ | bool _ _ | other _ _ => exact octetsRank_cast_eq_iff

/-- Keys stand at one place exactly where they have one encoding. -/
theorem place_eq_iff {p q : LogicalValue × LogicalValue} (hp : Accepted p.1) (hq : Accepted q.1) :
    place ord (entryOf ord p) = place ord (entryOf ord q) ↔ enc ord p.1 = enc ord q.1 := by
  rw [place, place, EmbeddingLike.apply_eq_iff_eq, Prod.mk.injEq]
  constructor
  · rintro ⟨hmajor, hrank⟩
    exact (keyRank_eq_iff (sameKind_of_keyMajor_eq hmajor) hp hq).1 hrank
  · intro h
    have hk := sameKind_of_enc_eq hp hq h
    exact ⟨keyMajor_eq_of_sameKind hk, (keyRank_eq_iff hk hp hq).2 h⟩

/-- What a pair of keys and values with one encoding shares. -/
theorem sig_eq_iff {p q : LogicalValue × LogicalValue} (hp : Accepted p.1) (hq : Accepted q.1) :
    sig ord (entryOf ord p) = sig ord (entryOf ord q) ↔ enc ord p.1 = enc ord q.1 ∧ enc ord p.2 = enc ord q.2 := by
  rw [sig, sig, Prod.mk.injEq, place_eq_iff hp hq, Prod.mk.injEq]
  exact and_self_left

end

/-! ## Sorting forgets the order of the entries -/

/-- Entries at distinct places are sorted into one order, whatever order they come in (R116). -/
theorem map_sig_sortEntries_eq {ord : NegKeyOrder} {es fs : List Entry} (hnodup : (es.map (place ord)).Nodup)
    (h : (es.map (sig ord)).Perm (fs.map (sig ord))) :
    (sortEntries ord es).map (sig ord) = (sortEntries ord fs).map (sig ord) := by
  have hsort : ∀ gs, ((sortEntries ord gs).map (sig ord)).Pairwise fun a b => a.1 ≤ b.1 := fun gs =>
    List.pairwise_map.2 ((sortEntries_ascending ord gs).imp fun h => keyLt_eq_false_iff_place.1 h)
  have hperm : ∀ gs, ((sortEntries ord gs).map (sig ord)).Perm (gs.map (sig ord)) := fun gs =>
    (sortEntries_perm ord gs).map _
  refine List.Perm.eq_of_pairwise (fun a b ha hb hab hba => ?_) (hsort es) (hsort fs)
    ((hperm es).trans (h.trans (hperm fs).symm))
  obtain ⟨e, he, rfl⟩ := List.mem_map.1 ((hperm es).mem_iff.1 ha)
  obtain ⟨f, hf, rfl⟩ := List.mem_map.1 (h.mem_iff.2 ((hperm fs).mem_iff.1 hb))
  rw [List.inj_on_of_nodup_map hnodup he hf (le_antisymm hab hba)]

/-! ## Equal values have equal encodings, and no others do -/

theorem hasDuplicateKey_eq_false_iff {l : List LogicalValue} :
    hasDuplicateKey l = false ↔ l.Pairwise fun a b => a.equiv b = false := by
  induction l with
  | nil => simp [hasDuplicateKey]
  | cons a l ih => simp [hasDuplicateKey, ih]

/-- Where `≈` on the keys is having one encoding, no two keys are `≈` where no two encodings are equal. -/
theorem hasDuplicateKey_eq_false_iff_nodup {ord : NegKeyOrder} {l : List LogicalValue}
    (h : ∀ a ∈ l, ∀ b ∈ l, (a.equiv b = true ↔ enc ord a = enc ord b)) :
    hasDuplicateKey l = false ↔ (l.map (enc ord)).Nodup := by
  rw [hasDuplicateKey_eq_false_iff, List.Nodup, List.pairwise_map]
  refine List.Pairwise.iff_of_mem fun {a b} ha hb => ?_
  rw [← Bool.not_eq_true, h a ha b hb]

theorem equiv_values_iff : ∀ {us vs : LogicalValues},
    us.equiv vs = true ↔ List.Forall₂ (fun u v => u.equiv v = true) us.toList vs.toList
  | .nil, .nil => by simp [LogicalValues.equiv, LogicalValues.toList]
  | .nil, .cons _ _ => by simp [LogicalValues.equiv, LogicalValues.toList]
  | .cons _ _, .nil => by simp [LogicalValues.equiv, LogicalValues.toList]
  | .cons u us, .cons v vs => by simp [LogicalValues.equiv, LogicalValues.toList, equiv_values_iff]

theorem forall₂_iff_map_eq {α β : Type} {R : α → α → Prop} {f : α → β} : ∀ {l m : List α},
    (∀ u ∈ l, ∀ v ∈ m, (R u v ↔ f u = f v)) → (List.Forall₂ R l m ↔ l.map f = m.map f)
  | [], [], _ => by simp
  | [], _ :: _, _ => by simp
  | _ :: _, [], _ => by simp
  | u :: l, v :: m, h => by
    have htail : ∀ a ∈ l, ∀ b ∈ m, (R a b ↔ f a = f b) :=
      fun a ha b hb => h a (List.mem_cons_of_mem _ ha) b (List.mem_cons_of_mem _ hb)
    rw [List.forall₂_cons, List.map_cons, List.map_cons, List.cons_eq_cons, forall₂_iff_map_eq htail,
      h u List.mem_cons_self v List.mem_cons_self]

theorem matchedIn_iff {qs : List (LogicalValue × LogicalValue)} : ∀ {ps : LogicalPairs}, ps.matchedIn qs = true ↔
    ∀ p ∈ ps.toList, qs.countP (fun q => p.1.equiv q.1 && p.2.equiv q.2) = 1
  | .nil => by simp [LogicalPairs.matchedIn, LogicalPairs.toList]
  | .cons k v ps => by
    rw [LogicalPairs.matchedIn, LogicalPairs.toList, List.forall_mem_cons, Bool.and_eq_true, beq_iff_eq, matchedIn_iff]

theorem equiv_map_iff {ps qs : LogicalPairs} : (LogicalValue.map ps).equiv (.map qs) = true ↔
    ps.toList.length = qs.toList.length ∧
      ∀ p ∈ ps.toList, qs.toList.countP (fun q => p.1.equiv q.1 && p.2.equiv q.2) = 1 := by
  rw [LogicalValue.equiv, Bool.and_eq_true, beq_iff_eq, matchedIn_iff, LogicalPairs.length_toList,
    LogicalPairs.length_toList]

/-- Where pairs match exactly where `f` gives one value, and no two of ps have one, every pair of ps has its one match in
as many qs exactly where the two lists are one list in another order. -/
theorem matched_iff_perm {α β : Type} [DecidableEq β] {f : α → β} {r : α → α → Bool} {l m : List α}
    (hr : ∀ p ∈ l, ∀ q ∈ m, (r p q = true ↔ f p = f q)) (hnodup : (l.map f).Nodup) :
    (l.length = m.length ∧ ∀ p ∈ l, m.countP (r p) = 1) ↔ (l.map f).Perm (m.map f) := by
  have hcount : ∀ p ∈ l, m.countP (r p) = (m.map f).count (f p) := by
    intro p hp
    rw [List.count, List.countP_map]
    exact List.countP_congr fun q hq => by rw [hr p hp q hq, Function.comp_apply, beq_iff_eq, eq_comm]
  constructor
  · rintro ⟨hlen, hmatch⟩
    have hsub : l.map f ⊆ m.map f := by
      intro x hx
      obtain ⟨p, hp, rfl⟩ := List.mem_map.1 hx
      have hone := (hcount p hp).symm.trans (hmatch p hp)
      exact List.count_pos_iff.1 (hone.symm ▸ Nat.one_pos)
    exact (List.subperm_of_subset hnodup hsub).perm_of_length_le (by simp [hlen])
  · intro hperm
    refine ⟨by simpa using hperm.length_eq, fun p hp => ?_⟩
    rw [hcount p hp]
    exact List.count_eq_one_of_mem (hperm.nodup_iff.1 hnodup) (hperm.mem_iff.1 (List.mem_map_of_mem hp))

section

variable {ord : NegKeyOrder}

/-- What a map says of each of its pairs. -/
def pairSigs (ord : NegKeyOrder) (ps : LogicalPairs) : List ((ℕ ×ₗ ℤ) × Octets × Octets) :=
  ps.toList.map fun p => sig ord (entryOf ord p)

theorem perm_pairSigs (ps : LogicalPairs) : ((sortedEntries ord ps).map (sig ord)).Perm (pairSigs ord ps) := by
  rw [pairSigs, ← Function.comp_def, ← List.map_map]
  exact (sortedEntries_perm ord ps).map _

theorem nodup_places {ps : LogicalPairs} (hps : ∀ p ∈ ps.toList, Accepted p.1)
    (hnodup : (ps.keys.map (enc ord)).Nodup) : ((ps.toList.map (entryOf ord)).map (place ord)).Nodup := by
  rw [LogicalPairs.keys_eq, List.map_map, List.Nodup, List.pairwise_map] at hnodup
  rw [List.map_map, List.Nodup, List.pairwise_map]
  exact hnodup.imp_of_mem fun {p q} hp hq hne heq => hne ((place_eq_iff (hps p hp) (hps q hq)).1 heq)

theorem nodup_pairSigs {ps : LogicalPairs} (hps : ∀ p ∈ ps.toList, Accepted p.1)
    (hnodup : (ps.keys.map (enc ord)).Nodup) : (pairSigs ord ps).Nodup := by
  have hplaces := nodup_places hps hnodup
  rw [List.map_map] at hplaces
  refine List.Nodup.of_map Prod.fst ?_
  rwa [pairSigs, List.map_map]

theorem enc_array_eq_iff {us vs : LogicalValues} (hu : Accepted (.array us)) (hv : Accepted (.array vs)) :
    enc ord (.array us) = enc ord (.array vs) ↔ us.toList.map (enc ord) = vs.toList.map (enc ord) := by
  obtain ⟨hlu, hus⟩ := hu.array
  obtain ⟨hlv, hvs⟩ := hv.array
  constructor
  · intro h
    rw [enc_array_flatMap, enc_array_flatMap] at h
    obtain ⟨hlen, h⟩ := head_append_inj (by decide) hlu hlv h
    exact (flatMap_append_inj (fun u hu v hv x y => enc_append_inj (hus u hu) (hvs v hv)) hlen
      (congrArg (· ++ []) h)).1
  · intro h
    have hlen := congrArg List.length h
    rw [List.length_map, List.length_map] at hlen
    rw [enc_array, enc_array, hlen, h]

/-- Maps have one encoding exactly where their pairs have the same encodings, in any order (R116, R123). -/
theorem enc_map_eq_iff {ps qs : LogicalPairs} (hp : Accepted (.map ps)) (hq : Accepted (.map qs))
    (hnodup : (ps.keys.map (enc ord)).Nodup) :
    enc ord (.map ps) = enc ord (.map qs) ↔ (pairSigs ord ps).Perm (pairSigs ord qs) := by
  obtain ⟨hlp, hps, -⟩ := hp.map
  obtain ⟨hlq, hqs, -⟩ := hq.map
  constructor
  · intro h
    rw [enc_map_flatMap, enc_map_flatMap] at h
    obtain ⟨hlen, h⟩ := head_append_inj (by decide) hlp hlq h
    have hentry : ∀ e ∈ sortedEntries ord ps, ∀ f ∈ sortedEntries ord qs, ∀ x y : Octets,
        e.keyOctets ++ e.valueOctets ++ x = f.keyOctets ++ f.valueOctets ++ y → sig ord e = sig ord f ∧ x = y := by
      intro e he f hf x y hef
      obtain ⟨p, hp, rfl⟩ := exists_of_mem_sortedEntries he
      obtain ⟨q, hq, rfl⟩ := exists_of_mem_sortedEntries hf
      rw [List.append_assoc, List.append_assoc] at hef
      obtain ⟨hkey, hef⟩ := enc_append_inj (hps p hp).1 (hqs q hq).1 hef
      obtain ⟨hvalue, hxy⟩ := enc_append_inj (hps p hp).2 (hqs q hq).2 hef
      exact ⟨(sig_eq_iff (hps p hp).1 (hqs q hq).1).2 ⟨hkey, hvalue⟩, hxy⟩
    have hsorted := (flatMap_append_inj hentry (by simpa using hlen) (congrArg (· ++ []) h)).1
    exact (perm_pairSigs ps).symm.trans ((List.Perm.of_eq hsorted).trans (perm_pairSigs qs))
  · intro h
    have hplaces := nodup_places (fun p hp => (hps p hp).1) hnodup
    have hsorted : (sortedEntries ord ps).map (sig ord) = (sortedEntries ord qs).map (sig ord) :=
      map_sig_sortEntries_eq hplaces (by rwa [List.map_map, List.map_map])
    have hlen := h.length_eq
    have hoctets := congrArg (List.flatMap fun x => x.2.1 ++ x.2.2) hsorted
    rw [List.flatMap_map, List.flatMap_map] at hoctets
    rw [pairSigs, pairSigs, List.length_map, List.length_map] at hlen
    rw [enc_map_flatMap, enc_map_flatMap, hlen]
    exact congrArg _ hoctets

end

theorem sameKind_of_equiv : ∀ {a b : LogicalValue}, a.equiv b = true → SameKind a b
  | .int x, .int y, h => .int x y (by rw [show x = y from beq_iff_eq.1 h])
  | .bytes x, .bytes y, _ => .bytes x y
  | .text x, .text y, _ => .text x y
  | .array us, .array vs, _ => .array us vs
  | .map ps, .map qs, _ => .map ps qs
  | .bool s, .bool t, _ => .bool s t

theorem equiv_iff_enc_eq_of_sameKind {ord : NegKeyOrder} {a b : LogicalValue} (ha : Accepted a) (hb : Accepted b)
    (h : SameKind a b → (a.equiv b = true ↔ enc ord a = enc ord b)) : a.equiv b = true ↔ enc ord a = enc ord b := by
  by_cases hk : SameKind a b
  · exact h hk
  · exact iff_of_false (mt sameKind_of_equiv hk) (mt (sameKind_of_enc_eq ha hb) hk)

/-- Values the check accepts are `≈` exactly where their encodings are equal. -/
theorem equiv_iff_enc_eq {ord : NegKeyOrder} {a b : LogicalValue} (ha : Accepted a) (hb : Accepted b) :
    a.equiv b = true ↔ enc ord a = enc ord b := by
  induction a using LogicalValue.induction_mem generalizing b with
  | int z =>
    refine equiv_iff_enc_eq_of_sameKind ha hb fun hk => ?_
    cases hk with
    | int _ w hsign => exact beq_iff_eq.trans (enc_int_eq_iff hsign ha hb).symm
  | bytes c =>
    refine equiv_iff_enc_eq_of_sameKind ha hb fun hk => ?_
    cases hk with
    | bytes _ c' => exact beq_iff_eq.trans (enc_bytes_eq_iff ha hb).symm
  | text c =>
    refine equiv_iff_enc_eq_of_sameKind ha hb fun hk => ?_
    cases hk with
    | text _ c' => exact beq_iff_eq.trans (enc_text_eq_iff ha hb).symm
  | bool t =>
    refine equiv_iff_enc_eq_of_sameKind ha hb fun hk => ?_
    cases hk with
    | bool _ t' => exact beq_iff_eq.trans enc_bool_eq_iff.symm
  | other k => exact absurd ha (not_accepted_other k)
  | array us ih =>
    refine equiv_iff_enc_eq_of_sameKind ha hb fun hk => ?_
    cases hk with
    | array _ vs =>
      rw [enc_array_eq_iff ha hb, LogicalValue.equiv, equiv_values_iff]
      exact forall₂_iff_map_eq fun u hu v hv => ih u hu (ha.array.2 u hu) (hb.array.2 v hv)
  | map ps ih =>
    refine equiv_iff_enc_eq_of_sameKind ha hb fun hk => ?_
    cases hk with
    | map _ qs =>
      obtain ⟨-, hps, hdup⟩ := ha.map
      obtain ⟨-, hqs, -⟩ := hb.map
      have hkeys : ∀ k ∈ ps.keys, ∀ k' ∈ ps.keys, (k.equiv k' = true ↔ enc ord k = enc ord k') := by
        intro k hk k' hk'
        rw [LogicalPairs.keys_eq] at hk hk'
        obtain ⟨p, hp, rfl⟩ := List.mem_map.1 hk
        obtain ⟨p', hp', rfl⟩ := List.mem_map.1 hk'
        exact (ih p hp).1 (hps p hp).1 (hps p' hp').1
      have hnodup := (hasDuplicateKey_eq_false_iff_nodup hkeys).1 hdup
      have hmatch : ∀ p ∈ ps.toList, ∀ q ∈ qs.toList, ((p.1.equiv q.1 && p.2.equiv q.2) = true ↔
          sig ord (entryOf ord p) = sig ord (entryOf ord q)) := by
        intro p hp q hq
        rw [Bool.and_eq_true, (ih p hp).1 (hps p hp).1 (hqs q hq).1, (ih p hp).2 (hps p hp).2 (hqs q hq).2,
          sig_eq_iff (hps p hp).1 (hqs q hq).1]
      calc (LogicalValue.map ps).equiv (.map qs) = true
        _ ↔ (pairSigs ord ps).Perm (pairSigs ord qs) :=
            equiv_map_iff.trans (matched_iff_perm hmatch (nodup_pairSigs (fun p hp => (hps p hp).1) hnodup))
        _ ↔ enc ord (.map ps) = enc ord (.map qs) := (enc_map_eq_iff ha hb hnodup).symm

/-- In a map the check accepts, the encodings of the keys are distinct. -/
theorem Accepted.nodup_keys {ps : LogicalPairs} (h : Accepted (.map ps)) (ord : NegKeyOrder) :
    (ps.keys.map (enc ord)).Nodup := by
  obtain ⟨-, hps, hdup⟩ := h.map
  refine (hasDuplicateKey_eq_false_iff_nodup fun a ha b hb => equiv_iff_enc_eq ?_ ?_).1 hdup
  · rw [LogicalPairs.keys_eq] at ha
    obtain ⟨p, hp, rfl⟩ := List.mem_map.1 ha
    exact (hps p hp).1
  · rw [LogicalPairs.keys_eq] at hb
    obtain ⟨p, hp, rfl⟩ := List.mem_map.1 hb
    exact (hps p hp).1

/-- The check accepts a map in whatever order its pairs stand. -/
theorem checkValue_map_perm {cfg : CodecConfig} {d : Nat} {ps qs : LogicalPairs} (hperm : qs.toList.Perm ps.toList)
    (h : checkValue cfg (.map ps) d = none) : checkValue cfg (.map qs) d = none := by
  obtain ⟨hd, hlen, hps, -⟩ := checkValue_map_eq_none_iff.1 h
  have hqs := fun q hq => hps q (hperm.mem_iff.1 hq)
  refine checkValue_map_eq_none_iff.2 ⟨hd, by rwa [hperm.length_eq], hqs, ?_⟩
  have hkeys : ∀ k ∈ qs.keys, Accepted k := by
    intro k hk
    rw [LogicalPairs.keys_eq] at hk
    obtain ⟨q, hq, rfl⟩ := List.mem_map.1 hk
    exact ⟨cfg, d + 1, (hqs q hq).1⟩
  rw [hasDuplicateKey_eq_false_iff_nodup (ord := .numeric) fun a ha b hb => equiv_iff_enc_eq (hkeys a ha) (hkeys b hb)]
  have hnodup := Accepted.nodup_keys ⟨cfg, d, h⟩ .numeric
  rw [LogicalPairs.keys_eq] at hnodup ⊢
  exact (((hperm.map _).map _).nodup_iff).2 hnodup

/-- Settles O28: the check accepts both maps or neither, and the pairs of both have the same encodings. -/
theorem encodeIgnoresMapOrder : Obligations.EncodeIgnoresMapOrder := by
  intro s ps qs hperm
  constructor
  · intro e h
    obtain ⟨hcheck, rfl⟩ := exec_encode_encoded_iff.1 h
    have hcheck' := checkValue_map_perm hperm hcheck
    have hps : Accepted (.map ps) := ⟨_, _, hcheck⟩
    exact exec_encode_encoded_iff.2 ⟨hcheck',
      ((enc_map_eq_iff hps ⟨_, _, hcheck'⟩ (hps.nodup_keys _)).2 (hperm.symm.map _)).symm⟩
  · intro x h
    have hcheck := exec_encode_err_iff.1 h
    cases hcheck' : checkValue s.codec (.map qs) 1 with
    | some y => exact ⟨y, exec_encode_err_iff.2 hcheck'⟩
    | none =>
      rw [checkValue_map_perm hperm.symm hcheck'] at hcheck
      cases hcheck

end Sys2Proof.Machine
end

section
/-! SUPPORT. What ENCODE writes for a `CborValue`, wherever it stands in an input, is an item of an equal value
(spec/41_cbor_decode.md R169). -/

namespace Sys2Proof.Machine

/-! ## Octets that stand somewhere in an input -/

/-- The octets x stand in b from offset p on. -/
def StandsAt (b : Octets) (p : Nat) (x : Octets) : Prop := x <+: b.drop p

section

variable {b x y : Octets} {p : Nat}

theorem standsAt_append : StandsAt b p (x ++ y) ↔ StandsAt b p x ∧ StandsAt b (p + x.length) y := by
  rw [StandsAt, StandsAt, StandsAt, ← List.drop_drop]
  constructor
  · rintro ⟨t, h⟩
    rw [← h, List.append_assoc, List.drop_left]
    exact ⟨List.prefix_append .., List.prefix_append ..⟩
  · rintro ⟨⟨t, h⟩, hy⟩
    rw [← h, List.drop_left] at hy
    rw [← h]
    exact (List.prefix_append_right_inj x).2 hy

theorem standsAt_self : StandsAt b 0 b := List.prefix_rfl

theorem StandsAt.getElem?_eq {o : Byte} (h : StandsAt b p (o :: x)) : b[p]? = some o := by
  obtain ⟨t, h⟩ := h
  rw [← Nat.add_zero p, ← List.getElem?_drop, ← h]
  rfl

theorem StandsAt.le_length (h : StandsAt b p x) (hx : x ≠ []) : p + x.length ≤ b.length := by
  have hlen := h.length_le
  have hpos := List.length_pos_iff.2 hx
  rw [List.length_drop] at hlen
  omega

theorem StandsAt.slice_eq (h : StandsAt b p x) : slice b p (p + x.length) = x := by
  rw [slice, Nat.add_sub_cancel_left]
  exact (List.prefix_iff_eq_take.1 h).symm

end

/-- A head in the rest of an input is one in the input. -/
theorem headAt_of_drop {b : Octets} {p mt arg q : Nat} (h : HeadAt (b.drop p) 0 mt arg q) :
    HeadAt b p mt arg (p + q) := by
  obtain ⟨ib, hib, h⟩ := h
  rw [List.getElem?_drop, Nat.add_zero] at hib
  refine ⟨ib, hib, ?_⟩
  obtain ⟨ai, hai, hval, harg, rfl⟩ | ⟨j, hj, hval, rfl, hlen, harg⟩ := h
  · exact .inl ⟨ai, hai, hval, harg, by omega⟩
  · have hpos : 0 < 2 ^ j := Nat.two_pow_pos j
    rw [List.length_drop] at hlen
    refine .inr ⟨j, hj, hval, by omega, by omega, ?_⟩
    rw [harg, slice, slice, List.drop_drop, Nat.zero_add, Nat.add_sub_add_left]

theorem headAt_of_standsAt {b : Octets} {p a : Nat} {mt : BitVec 3} (ha : a < 2 ^ 64) (h : StandsAt b p (head mt a)) :
    HeadAt b p mt.toNat a (p + (head mt a).length) := by
  obtain ⟨t, h⟩ := h
  exact headAt_of_drop (h ▸ headAt_head mt ha t)

/-- A string after its length: where its octets are, and that they are all there. -/
theorem standsAt_string {b c : Octets} {p n : Nat} {mt : BitVec 3} (h : StandsAt b p (head mt n ++ c)) :
    StandsAt b p (head mt n) ∧ slice b (p + (head mt n).length) (p + (head mt n).length + c.length) = c ∧
      p + (head mt n).length + c.length ≤ b.length := by
  obtain ⟨ai, t, hcons⟩ := head_eq_cons mt n
  have hend := h.le_length (by rw [hcons]; exact List.cons_ne_nil _ _)
  obtain ⟨hhead, hc⟩ := standsAt_append.1 h
  rw [List.length_append, ← Nat.add_assoc] at hend
  exact ⟨hhead, hc.slice_eq, hend⟩

/-! ## Depths of elements -/

section

variable {cfg : CodecConfig} {d m n : Nat}

theorem LevelsOk.depthOk (h : LevelsOk cfg d (n + 1)) : DepthOk cfg d := fun k hk => by
  have hle := h k hk
  omega

/-- The levels below a container hold each of its elements. -/
theorem LevelsOk.element (h : LevelsOk cfg d (n + 1)) (hm : m ≤ n) : LevelsOk cfg (d + 1) m := fun k hk => by
  have hle := h k hk
  omega

end

theorem depthOf_le_depthOfAll {v : LogicalValue} : ∀ {vs : LogicalValues}, v ∈ vs.toList → depthOf v ≤ depthOfAll vs
  | .cons u us, h => by
    rw [depthOfAll, le_max_iff]
    exact (List.mem_cons.1 h).imp (fun heq => (congrArg depthOf heq).le) depthOf_le_depthOfAll

theorem depthOf_le_depthOfPairs {p : LogicalValue × LogicalValue} : ∀ {ps : LogicalPairs}, p ∈ ps.toList →
    depthOf p.1 ≤ depthOfPairs ps ∧ depthOf p.2 ≤ depthOfPairs ps
  | .cons k v ps, h => by
    rw [depthOfPairs]
    obtain rfl | h := List.mem_cons.1 h
    · simp
    · have hle := depthOf_le_depthOfPairs h
      omega

/-! ## The round trip -/

theorem accepted_of_isCbor {v : LogicalValue} (h : isCbor v = true) : Accepted v :=
  ⟨{ CodecConfig.reference with maxDepth := none }, 1, checkValue_eq_none_of_isCbor (d := 0) h nofun⟩

/-- Wherever the encoding of v stands, an item of an equal value stands, with that encoding. -/
def ReadsBack (cfg : CodecConfig) (ord : NegKeyOrder) (d : Nat) (v : LogicalValue) : Prop :=
  ∀ {b : Octets} {p : Nat}, StandsAt b p (enc ord v) →
    ∃ v', ItemAt cfg b p d v' (p + (enc ord v).length) ∧ enc ord v' = enc ord v

section

variable {cfg : CodecConfig} {ord : NegKeyOrder} {d : Nat} {b : Octets}

theorem readsBack_elements : ∀ {l : List LogicalValue} {p : Nat}, (∀ v ∈ l, ReadsBack cfg ord d v) →
    StandsAt b p (l.flatMap (enc ord)) →
      ∃ vs, ElementsAt cfg b l.length p d vs (p + (l.flatMap (enc ord)).length) ∧
        vs.toList.map (enc ord) = l.map (enc ord)
  | [], _, _, _ => ⟨.nil, .nil, rfl⟩
  | u :: l, p, hread, hb => by
    obtain ⟨hu, hl⟩ := List.forall_mem_cons.1 hread
    rw [List.flatMap_cons, standsAt_append] at hb
    obtain ⟨u', hitem, hencu⟩ := hu hb.1
    obtain ⟨vs, helems, hencs⟩ := readsBack_elements hl hb.2
    refine ⟨.cons u' vs, ?_, by rw [LogicalValues.toList, List.map_cons, List.map_cons, hencu, hencs]⟩
    rw [List.flatMap_cons, List.length_append, ← Nat.add_assoc]
    exact .cons hitem helems

/-- An entry of a map whose key and value read back. -/
def EntryReadsBack (cfg : CodecConfig) (ord : NegKeyOrder) (d : Nat) (e : Entry) : Prop :=
  ∃ p, entryOf ord p = e ∧ Accepted p.1 ∧ ReadsBack cfg ord d p.1 ∧ ReadsBack cfg ord d p.2

/-- Entries whose keys have encodings distinct from each other and from those of the keys seen. -/
theorem readsBack_pairs : ∀ {es : List Entry} {seen : List LogicalValue} {p : Nat},
    (∀ e ∈ es, EntryReadsBack cfg ord d e) → (∀ k ∈ seen, Accepted k) →
      (seen.map (enc ord) ++ es.map Entry.keyOctets).Nodup →
        StandsAt b p (es.flatMap fun e => e.keyOctets ++ e.valueOctets) →
          ∃ ps, PairsAt cfg b es.length seen p d ps
              (p + (es.flatMap fun e => e.keyOctets ++ e.valueOctets).length) ∧
            pairSigs ord ps = es.map (sig ord)
  | [], _, _, _, _, _, _ => ⟨.nil, .nil, rfl⟩
  | e :: es, seen, p, hread, hseen, hnodup, hb => by
    obtain ⟨⟨⟨k, v⟩, rfl, hk, hreadk, hreadv⟩, hreades⟩ := List.forall_mem_cons.1 hread
    rw [List.flatMap_cons, standsAt_append, standsAt_append] at hb
    obtain ⟨⟨hbk, hbv⟩, hbes⟩ := hb
    obtain ⟨k', hitemk, henck⟩ := hreadk hbk
    obtain ⟨v', hitemv, hencv⟩ := hreadv hbv
    have hk' := accepted_of_isCbor hitemk.isCbor.1
    have hnew : ∀ k'' ∈ seen, k''.equiv k' = false := by
      intro k'' hk''
      rw [← Bool.not_eq_true, equiv_iff_enc_eq (ord := ord) (hseen k'' hk'') hk', henck]
      exact (List.nodup_append.1 hnodup).2.2 _ (List.mem_map_of_mem hk'') _ List.mem_cons_self
    have hseen' : ∀ k'' ∈ seen ++ [k'], Accepted k'' :=
      List.forall_mem_append.2 ⟨hseen, List.forall_mem_singleton.2 hk'⟩
    have hnodup' : ((seen ++ [k']).map (enc ord) ++ es.map Entry.keyOctets).Nodup := by
      rw [List.map_append, List.map_singleton, henck, List.append_assoc]
      exact hnodup
    obtain ⟨ps, hpairs, hsigs⟩ := readsBack_pairs hreades hseen' hnodup' hbes
    rw [List.length_append, ← Nat.add_assoc] at hpairs
    refine ⟨.cons k' v' ps, ?_, ?_⟩
    · rw [List.flatMap_cons, List.length_append, List.length_append, ← Nat.add_assoc, ← Nat.add_assoc]
      exact .cons hitemk hnew hitemv hpairs
    · have hsig := (sig_eq_iff (ord := ord) (p := (k', v')) (q := (k, v)) hk' hk).2 ⟨henck, hencv⟩
      rw [List.map_cons, ← hsigs, ← hsig]
      rfl

theorem readsBack_int {z : Int} (hacc : Accepted (.int z)) (hd : DepthOk cfg d) : ReadsBack cfg ord d (.int z) := by
  intro b p hb
  have hz := hacc.int
  rw [enc] at hb ⊢
  by_cases h0 : 0 ≤ z
  · rw [encInt, if_pos h0] at hb ⊢
    have hitem := ItemAt.uint hd (headAt_of_standsAt (by omega) hb)
    rw [Int.toNat_of_nonneg h0] at hitem
    exact ⟨.int z, hitem, by rw [enc, encInt, if_pos h0]⟩
  · rw [encInt, if_neg h0] at hb ⊢
    have hitem := ItemAt.nint hd (headAt_of_standsAt (by omega) hb)
    rw [Int.toNat_of_nonneg (by omega), sub_sub_cancel] at hitem
    exact ⟨.int z, hitem, by rw [enc, encInt, if_neg h0]⟩

/-- A map whose keys and values read back: its entries stand in the order of their keys, and the pairs read have the same
encodings. -/
theorem readsBack_map {ps : LogicalPairs} (hv : isCbor (.map ps) = true) (hd : DepthOk cfg d)
    (hread : ∀ q ∈ ps.toList, ReadsBack cfg ord (d + 1) q.1 ∧ ReadsBack cfg ord (d + 1) q.2) :
    ReadsBack cfg ord d (.map ps) := by
  intro b p hb
  obtain ⟨hlen, hps, -⟩ := isCbor_map_iff.1 hv
  have hnodup := (accepted_of_isCbor hv).nodup_keys ord
  have hentry : ∀ e ∈ sortedEntries ord ps, EntryReadsBack cfg ord (d + 1) e := by
    intro e he
    obtain ⟨q, hq, rfl⟩ := exists_of_mem_sortedEntries he
    exact ⟨q, rfl, accepted_of_isCbor (hps q hq).1, hread q hq⟩
  have hkeys : ((sortedEntries ord ps).map Entry.keyOctets).Nodup := by
    rw [LogicalPairs.keys_eq, List.map_map] at hnodup
    rwa [((sortedEntries_perm ord ps).map _).nodup_iff, List.map_map]
  rw [enc_map_flatMap, standsAt_append] at hb
  obtain ⟨ps', hpairs, hsigs⟩ := readsBack_pairs (seen := []) hentry nofun hkeys hb.2
  rw [length_sortedEntries] at hpairs
  have hitem := ItemAt.map hd (headAt_of_standsAt hlen hb.1) hpairs
  have hperm : (pairSigs ord ps).Perm (pairSigs ord ps') := hsigs ▸ (perm_pairSigs ps).symm
  refine ⟨.map ps', ?_, ?_⟩
  · rwa [enc_map_flatMap, List.length_append, ← Nat.add_assoc]
  · exact ((enc_map_eq_iff (accepted_of_isCbor hv) (accepted_of_isCbor hitem.isCbor.1) hnodup).2 hperm).symm

/-- The encoding of a `CborValue` within MAX_DEPTH reads back (R169). -/
theorem readsBack_of_isCbor {v : LogicalValue} (hv : isCbor v = true) (hd : LevelsOk cfg d (depthOf v)) :
    ReadsBack cfg ord d v := by
  induction v using LogicalValue.induction_mem generalizing d with
  | int z => exact readsBack_int (accepted_of_isCbor hv) hd.depthOk
  | bytes c =>
    intro b p hb
    have hlen := (accepted_of_isCbor hv).bytes
    rw [enc] at hb ⊢
    obtain ⟨hhead, hc, hend⟩ := standsAt_string hb
    have hitem := ItemAt.bytes hd.depthOk (headAt_of_standsAt hlen hhead) hend
    rw [hc, Nat.add_assoc, ← List.length_append] at hitem
    exact ⟨.bytes c, hitem, by rw [enc]⟩
  | text c =>
    intro b p hb
    have hlen := (accepted_of_isCbor hv).text
    have hutf8 : utf8WellFormed c = true := (Bool.and_eq_true_iff.1 hv).2
    rw [enc] at hb ⊢
    obtain ⟨hhead, hc, hend⟩ := standsAt_string hb
    have hitem := ItemAt.text hd.depthOk (headAt_of_standsAt hlen hhead) hend (by rwa [hc])
    rw [hc, Nat.add_assoc, ← List.length_append] at hitem
    exact ⟨.text c, hitem, by rw [enc]⟩
  | bool t =>
    intro b p hb
    rw [enc, encBool] at hb ⊢
    refine ⟨.bool t, ?_, by rw [enc, encBool]⟩
    cases t with
    | false => exact .false hd.depthOk hb.getElem?_eq
    | true => exact .true hd.depthOk hb.getElem?_eq
  | other k => cases hv
  | array vs ih =>
    intro b p hb
    obtain ⟨hlen, hvs⟩ := isCbor_array_iff.1 hv
    rw [enc_array_flatMap, standsAt_append] at hb
    obtain ⟨vs', helems, hencs⟩ := readsBack_elements
      (fun v hmem => ih v hmem (hvs v hmem) (hd.element (depthOf_le_depthOfAll hmem))) hb.2
    have hitem := ItemAt.array hd.depthOk (headAt_of_standsAt hlen hb.1) helems
    refine ⟨.array vs', ?_, ?_⟩
    · rwa [enc_array_flatMap, List.length_append, ← Nat.add_assoc]
    · exact (enc_array_eq_iff (accepted_of_isCbor hitem.isCbor.1) (accepted_of_isCbor hv)).2 hencs
  | map ps ih =>
    obtain ⟨-, hps, -⟩ := isCbor_map_iff.1 hv
    refine readsBack_map hv hd.depthOk fun q hq => ?_
    obtain ⟨hk, hv⟩ := hps q hq
    obtain ⟨hdk, hdv⟩ := depthOf_le_depthOfPairs hq
    exact ⟨(ih q hq).1 hk (hd.element hdk), (ih q hq).2 hv (hd.element hdv)⟩

end

/-- Settles O27: the encoding reads back as an item of the whole input, with the same encoding and so an `≈` value. -/
theorem encodeDecodeRoundTrip : Obligations.EncodeDecodeRoundTrip := by
  intro s v hcbor hdepth
  have hcheck : checkValue s.codec v 1 = none := checkValue_eq_none_of_isCbor (d := 0) hcbor (by rwa [Nat.zero_add])
  have hlevels : LevelsOk s.codec 1 (depthOf v) := fun k hk => by
    have hle := hdepth k hk
    omega
  obtain ⟨v', hitem, henc⟩ := readsBack_of_isCbor (ord := s.codec.negKeyOrder) hcbor hlevels standsAt_self
  rw [Nat.zero_add] at hitem
  exact ⟨enc s.codec.negKeyOrder v, v', exec_encode_encoded_iff.2 ⟨hcheck, rfl⟩, decodeOp_eq_decoded_iff.2 hitem,
    (decodeAllTakesTheWholeInput s _).1 v' hitem,
    (equiv_iff_enc_eq (accepted_of_isCbor hitem.isCbor.1) (accepted_of_isCbor hcbor)).2 henc⟩

end Sys2Proof.Machine
end
